-- ==== Sys2Proof/Word.lean ====
section
/-! DEFINITION. The byte and the wider words the manual's layouts carry. Everything that turns one into
another (byte order, the check code) stands in `Machine/Ops.lean`. -/

namespace Sys2Proof

/-- One journal cell, one byte of a record, a tag, a generation, a control code. -/
abbrev Byte := BitVec 8

/-- A two-byte field of a record: a key id, an offset, a sequence number, a lifetime. -/
abbrev Word16 := BitVec 16

/-- A four-byte field: the CRC-32 of R36. -/
abbrev Word32 := BitVec 32

/-- A string of bytes in the order they are carried (R180: lowest offset or first sent at the head). -/
abbrev Bytes := List Byte

end Sys2Proof
end

