-- ==== Sys2Proof/Config.lean ====
section
/-! DEFINITION. The sizes and limits the manual fixes for the part. What the environment decides (the bits a pulse
sets, a strap, the order in which racing events are taken) is an operand of a command, the order of the commands, or
one of the two fields of State that no command sets (`pauses`, `csRises`). -/

namespace Sys2Proof.Config

/-- Byte cells of the Journal Array, offsets 0000h to 2FFFh (R26). -/
abbrev arrayBytes : Nat := 0x3000

/-- Bytes of one directory slot (R31). -/
abbrev slotBytes : Nat := 16

/-- Directory slots at most (R31). -/
abbrev maxSlots : Nat := 256

/-- The bytes the smallest entry needs: a slot and a five-byte body (R32). -/
abbrev smallestEntry : Nat := 21

/-- Actions of one Staging List at most (R47). -/
abbrev maxActions : Nat := 24

/-- Bytes of one encoded body at most (R47). -/
abbrev maxBody : Nat := 512

/-- Records of the Overlay Table at most (R107). -/
abbrev maxOverlays : Nat := 16

/-- Ranges of one watch list at most (R127). -/
abbrev maxWatches : Nat := 8

/-- The queue length up to which an arrival still joins a notice queue without a marker (R134). -/
abbrev noticeRoom : Nat := 14

/-- Pulses one byte may take (R27). -/
abbrev maxPulses : Nat := 4

/-- Argument bytes and data bytes of one record at most (R141, R142). -/
abbrev maxArgs : Nat := 60

/-- Sends of one notice before its last expiry is link loss (R175). -/
abbrev maxSends : Nat := 4

/-- Bytes of the link buffer (section 10.3). -/
abbrev linkBufferBytes : Nat := 68

/-- Bytes of the request area and of the response area (R160). -/
abbrev areaBytes : Nat := 64

end Sys2Proof.Config
end

