-- ==== Sys2Proof/Syntax.lean ====
section
/-! DEFINITION. The commands of the part: one constructor of `Instr` for each row of
spec/opcode_table.json, with the operands the row's rule gives it. -/

namespace Sys2Proof

/-- The three host ports (section Ports of the conventions). -/
inductive Port where
  | port0 | port1 | port2
deriving DecidableEq, Repr

/-- The port number carried in records: 0, 1, 2. -/
abbrev Port.number : Port → Nat
  | .port0 => 0
  | .port1 => 1
  | .port2 => 2

/-- The two window ports, ports 0 and 1 (chapter 9). -/
inductive WindowPort where
  | window0 | window1
deriving DecidableEq, Repr

/-- The host port a window belongs to. -/
abbrev WindowPort.port : WindowPort → Port
  | .window0 => .port0
  | .window1 => .port1

/-- How the board connects a strap pin (R157). -/
inductive StrapPin where
  /-- Tied to VSS. -/
  | vss
  /-- Tied to VDD. -/
  | vdd
  /-- To VSS through about 47 kΩ. -/
  | pulledDown
  /-- To VDD through about 47 kΩ. -/
  | pulledUp
  /-- Left open. -/
  | floating
deriving DecidableEq, Repr

/-- The guard argument of STAGE_ASSIGN and STAGE_RETIRE (R180, R182). -/
inductive GuardArg where
  | none
  | equals (value : Bytes)
  | untouched
deriving DecidableEq, Repr

/-- What ends a frame on the link (R168, R169). -/
inductive FrameEnd where
  /-- An end mark on a byte boundary. -/
  | endMark
  /-- A coding violation, or an end mark off a byte boundary. -/
  | violation
  /-- A start mark within the frame: a new frame begins at it. -/
  | startMark
  /-- The line left high for more than 24 µs without an end mark. -/
  | silentLine
deriving DecidableEq, Repr

/-- The commands. A request row (GET to UNKNOWN_REQUEST_KIND) names the port, the request's tag and its
arguments; the other rows name what the event itself carries. -/
inductive Instr where
  /-- GET (R153). -/
  | get (p : Port) (tag : Byte) (key : Word16)
  /-- GET_DETAIL (R154). -/
  | getDetail (p : Port) (tag : Byte) (key : Word16)
  /-- CATALOG_READ (R155). -/
  | catalogRead (p : Port) (tag : Byte) (position : Byte)
  /-- OPEN (R122). -/
  | openSession (p : Port) (tag : Byte)
  /-- CLOSE (R123). -/
  | closeSession (p : Port) (tag : Byte)
  /-- WATCH (R128). -/
  | watch (p : Port) (tag : Byte) (first last : Word16)
  /-- UNWATCH (R129). -/
  | unwatch (p : Port) (tag : Byte) (first last : Word16)
  /-- NOTICE_READ (R137). -/
  | noticeRead (p : Port) (tag : Byte)
  /-- STAGE_ASSIGN (R51). -/
  | stageAssign (p : Port) (tag : Byte) (key : Word16) (value : Bytes) (guard : GuardArg)
  /-- STAGE_RETIRE (R52). -/
  | stageRetire (p : Port) (tag : Byte) (key : Word16) (guard : GuardArg)
  /-- STAGE_PIN (R53). -/
  | stagePin (p : Port) (tag : Byte) (key : Word16)
  /-- STAGE_DROP (R54). -/
  | stageDrop (p : Port) (tag : Byte) (key : Word16)
  /-- STAGE_CLEAR (R55). -/
  | stageClear (p : Port) (tag : Byte)
  /-- STAGE_LIST (R56). -/
  | stageList (p : Port) (tag : Byte) (index : Byte)
  /-- COMMIT (R58). -/
  | commit (p : Port) (tag : Byte)
  /-- ABORT (R59). -/
  | abort (p : Port) (tag : Byte)
  /-- COMMIT_RESULT (R75). -/
  | commitResult (p : Port) (tag : Byte)
  /-- OVERLAY_SET (R109). -/
  | overlaySet (p : Port) (tag : Byte) (key : Word16) (value : Bytes) (lifetime : Word16) (bound : Bool)
  /-- OVERLAY_CLEAR (R111). -/
  | overlayClear (p : Port) (tag : Byte) (key : Word16)
  /-- OVERLAY_LIST (R112). -/
  | overlayList (p : Port) (tag : Byte) (index : Byte)
  /-- REVOKE (R95). -/
  | revoke (p : Port) (tag : Byte) (seq : Word16)
  /-- REBUILD (R90). -/
  | rebuild (p : Port) (tag : Byte)
  /-- JOURNAL_STAT (R156). -/
  | journalStat (p : Port) (tag : Byte)
  /-- JOURNAL_READ (R45). -/
  | journalRead (p : Port) (tag : Byte) (offset : Word16) (length : Byte)
  /-- ENTRY_READ (R41). -/
  | entryRead (p : Port) (tag : Byte) (seq : Word16)
  /-- LINK_STAT (R178). -/
  | linkStat (p : Port) (tag : Byte) (clear : Bool)
  /-- A request whose kind code names no request kind (R148). -/
  | unknownRequestKind (p : Port) (tag : Byte) (kind : Byte) (args : Bytes)
  /-- A JOURNAL_READ that the arbiter held is taken after the run (R45). -/
  | heldJournalReadServed (p : Port)
  /-- PORT_CONTROL code A1h (R161, R162). -/
  | go (w : WindowPort)
  /-- PORT_CONTROL code A2h (R161). -/
  | take (w : WindowPort)
  /-- PORT_CONTROL code A7h (R164). -/
  | portReset (w : WindowPort)
  /-- Any other byte written to PORT_CONTROL (R163). -/
  | unknownControlCode (w : WindowPort) (code : Byte)
  /-- A byte written to the request area, 10h to 4Fh (R160, R161). -/
  | requestAreaWrite (w : WindowPort) (offset data : Byte)
  /-- A byte written to ATTN_ENABLE, 02h (R160, R165). -/
  | attnEnableWrite (w : WindowPort) (data : Byte)
  /-- A byte written to a read-only or unlisted offset (R160). -/
  | windowWriteIgnored (w : WindowPort) (offset data : Byte)
  /-- A REQ frame received whole (R171). -/
  | req (tag kind : Byte) (args : Bytes)
  /-- An ACK frame received whole; its code byte is not examined (R169, R175). -/
  | ack (tag code : Byte)
  /-- A RESET frame received whole; its tag and code bytes are not examined (R169, R176). -/
  | resetFrame (tag code : Byte)
  /-- A received frame that is discarded, or a valid RSP, NOTE or BUSY that is ignored: the bytes between
  the marks and what ended them (R169). -/
  | frameDiscarded (bytes : Bytes) (ending : FrameEnd)
  /-- The 48 µs turnaround ends (R170, R173). -/
  | turnaroundComplete
  /-- The end mark of a sent frame completes (R173, R175). -/
  | frameSendComplete
  /-- The acknowledgement timer expires (R175). -/
  | ackTimerExpiry
  /-- The line has been held low for more than 5 ms (R177). -/
  | linkLoss
  /-- The line is released after a held-low link loss (R177). -/
  | linkLineReleased
  /-- Power-on or RESET asserted; `cut` is the bits that a pulse under way still sets (R25, R29, R73). -/
  | deviceReset (cut : Byte)
  /-- Power-on completes or RESET is released; the strap pins read as given (R77, R157). -/
  | resetRelease (strap0 strap1 : StrapPin)
  /-- The start-up replay installs its result (R87). -/
  | startupReplayDone
  /-- A REBUILD run installs its result (R91). -/
  | rebuildInstall
  /-- One 1 ms tick of the Timebase (R113, R175). -/
  | timebaseTick
  /-- The overlays whose count has reached 0 are removed (R113). -/
  | overlayExpired
  /-- A burn pulse and its readback complete; `taken` is the bits the cell takes from the pulse (R27). Where the
  writer waits at a moment without a pulse, it goes on (log entry 6). -/
  | burnPulse (taken : Byte)
  /-- The body readback of a commit completes (R66). -/
  | verify
  /-- A defective cell gains bits without a burn (R26). -/
  | cellBitGain (offset : Word16) (bits : Byte)
  /-- A start mark is taken on the link (R170, R174). -/
  | startMark
  /-- The handler's answer becomes ready (R145, R146, R162, R172). -/
  | answerReady (p : Port)
  /-- The BURN_EN input changes to `level`, true for high (R28). -/
  | burnEnChange (level : Bool)
  /-- The I2C offset byte or the SPI command byte (R158, R159). -/
  | windowPointerSet (w : WindowPort) (byte : Byte)
  /-- A data byte read from the window (R158, R160). -/
  | windowByteRead (w : WindowPort)
  /-- A low on the line, of a duration in nanoseconds, that is no start mark and no link loss (R168). -/
  | preambleOrNoise (lowNs : Nat)
deriving DecidableEq, Repr

end Sys2Proof
end

