-- ==== Sys2Proof/Decode.lean ====
section
/-! DEFINITION. The commands that spec/opcode_table.json spells by bits. Its rows give no bits: a command is an
event at a port, a pin or a cell, and a request's bytes are read by `Record.request?` (Machine/Operands.lean)
and a frame's by `readFrame` (Machine/Formats.lean). -/

namespace Sys2Proof

/-- The command that a word of the table's bits spells: none, since no row has bits. -/
def decodeTableWord (_nbits _w : Nat) : Option Instr := none

end Sys2Proof
end

