-- ==== Sys2Proof/Machine/Catalog.lean ====
section
/-! DEFINITION. The Key Catalog (R1 to R8, Tables 1-1 and 1-2): the mask ROM of 160 key descriptors, and the
tests of a value's form and range that every block makes against it. -/

namespace Sys2Proof.Machine

/-- The form of a key's values (R2). -/
inductive KeyKind where
  | scalar8 | scalar16 | scalar32 | blob
deriving DecidableEq, Repr

/-- Where a committed value goes (R5). -/
inductive ApplyMode where
  | live | deferred
deriving DecidableEq, Repr

/-- A range rule beyond minimum and maximum (R8, Table 1-3). -/
inductive ExtraRule where
  | none | grantRule
deriving DecidableEq, Repr

/-- One catalog descriptor (Table 1-3). -/
structure Descriptor where
  key : Nat
  position : Nat
  kind : KeyKind
  size : Nat
  keyClass : Nat
  applyMode : ApplyMode
  overlayPermitted : Bool
  minimum : Nat
  maximum : Nat
  extraRule : ExtraRule
  default : Bytes
deriving DecidableEq, Repr

/-- The number that `bytes` carries, most significant byte first (R180). -/
def natOfBytes (bytes : Bytes) : Nat :=
  bytes.foldl (fun n b => n * 256 + b.toNat) 0

/-- The `width` bytes that carry `n`, most significant byte first (R180). -/
def bytesOfNat : Nat → Nat → Bytes
  | 0, _ => []
  | width + 1, n => BitVec.ofNat 8 (n / 256 ^ width) :: bytesOfNat width n

/-- Width in bytes of a scalar; greatest length of a blob (Table 1-3). -/
def KeyKind.size : KeyKind → Nat
  | .scalar8 => 1
  | .scalar16 => 2
  | .scalar32 => 4
  | .blob => 32

/-- One row of Table 1-1, or of Table 1-2 for an own key: a run of keys described alike. -/
structure CatalogRow where
  first : Nat
  count : Nat
  position : Nat
  kind : KeyKind
  keyClass : Nat
  applyMode : ApplyMode
  overlayPermitted : Bool
  minimum : Nat
  maximum : Nat
  extraRule : ExtraRule
  defaultNumber : Nat
deriving DecidableEq, Repr

/-- Tables 1-1 and 1-2. A blob row reports minimum and maximum 0 (R7). -/
def catalogRows : List CatalogRow :=
  [ ⟨0x000, 16,   0, .scalar8,  0, .live, true,  0, 0xFF, .none, 0⟩,
    ⟨0x010, 16,  16, .scalar8,  1, .live, true,  0, 0xFF, .none, 0⟩,
    ⟨0x020, 16,  32, .scalar16, 2, .live, true,  0, 0xFFFF, .none, 0⟩,
    ⟨0x030, 16,  48, .scalar16, 3, .live, true,  0, 0xFFFF, .none, 0⟩,
    ⟨0x040, 16,  64, .scalar32, 4, .live, false, 0, 0xFFFFFFFF, .none, 0⟩,
    ⟨0x050, 16,  80, .scalar32, 5, .live, false, 0, 0xFFFFFFFF, .none, 0⟩,
    ⟨0x060, 32,  96, .scalar32, 6, .deferred, false, 0, 0xFFFFFFFF, .none, 0⟩,
    ⟨0x100, 27, 128, .blob,     5, .live, false, 0, 0, .none, 0⟩,
    ⟨0x7F0, 1, 155, .scalar32,  7, .live, false, 0, 0x00FFFFFF, .grantRule, 0x000F7FFF⟩,
    ⟨0x7F1, 1, 156, .scalar16,  7, .live, false, 0, 1024, .none, 256⟩,
    ⟨0x7F2, 1, 157, .scalar16,  7, .live, false, 0, 0xFFFF, .none, 0⟩,
    ⟨0x7F3, 1, 158, .scalar8,   7, .deferred, false, 5, 200, .none, 20⟩,
    ⟨0x7F4, 1, 159, .scalar8,   7, .deferred, false, 0, 7, .none, 7⟩ ]

/-- A row's default as a value of its form: the number in the key's width; the empty blob. -/
def CatalogRow.defaultValue (r : CatalogRow) : Bytes :=
  match r.kind with
  | .blob => []
  | k => bytesOfNat k.size r.defaultNumber

/-- The descriptor a row gives the key `key`. -/
def CatalogRow.descriptor (r : CatalogRow) (key : Nat) : Descriptor :=
  { key := key, position := r.position + (key - r.first), kind := r.kind, size := r.kind.size,
    keyClass := r.keyClass, applyMode := r.applyMode, overlayPermitted := r.overlayPermitted,
    minimum := r.minimum, maximum := r.maximum, extraRule := r.extraRule, default := r.defaultValue }

/-- The catalog descriptor of a key id; absent where the id is not a key of the part (R1). -/
def descriptor? (key : Nat) : Option Descriptor :=
  match catalogRows.find? (fun r => r.first ≤ key && key < r.first + r.count) with
  | some r => some (r.descriptor key)
  | none => none

/-- The 160 catalog keys in catalog position order (R1). -/
def catalogKeys : List Nat :=
  catalogRows.flatMap fun r => (List.range r.count).map (r.first + ·)

/-- The descriptor at a catalog position; absent above position 159 (R155). -/
def descriptorAt? (position : Nat) : Option Descriptor :=
  match catalogKeys[position]? with
  | some key => descriptor? key
  | none => none

/-- The form test of R2. -/
def Descriptor.hasForm (d : Descriptor) (value : Bytes) : Bool :=
  match d.kind with
  | .blob => value.length ≤ d.size
  | _ => value.length = d.size

/-- GRANT_RULE: some port's grant byte contains class 7 (R8). -/
def grantsClassSeven (n : Nat) : Bool :=
  n.testBit 7 || n.testBit 15 || n.testBit 23

/-- The range test of R3 and R8, for a value that has the form of R2. -/
def Descriptor.inRange (d : Descriptor) (value : Bytes) : Bool :=
  match d.kind with
  | .blob => true
  | _ =>
    let n := natOfBytes value
    d.minimum ≤ n && n ≤ d.maximum &&
      match d.extraRule with
      | .none => true
      | .grantRule => grantsClassSeven n

/-- The own keys (Table 1-2). -/
def keyGrantMap : Nat := 0x7F0
def keyCommitReserve : Nat := 0x7F1
def keyOverlayCap : Nat := 0x7F2
def keyLinkAckWindow : Nat := 0x7F3
def keyPortEnable : Nat := 0x7F4

end Sys2Proof.Machine
end

