-- ==== Sys2Proof/Machine/State.lean ====
section
/-! DEFINITION. Everything the manual gives the part to hold, as plain data, and its value after a device
reset. INVENTORY.md lists each field with the rule that names it. -/

namespace Sys2Proof.Machine

/-! ### One item per port, one item per window port -/

/-- One item for each of the three host ports. -/
structure PerPort (α : Type) where
  port0 : α
  port1 : α
  port2 : α
deriving DecidableEq, Repr

def PerPort.get {α : Type} (x : PerPort α) : Port → α
  | .port0 => x.port0
  | .port1 => x.port1
  | .port2 => x.port2

def PerPort.set {α : Type} (x : PerPort α) : Port → α → PerPort α
  | .port0, v => { x with port0 := v }
  | .port1, v => { x with port1 := v }
  | .port2, v => { x with port2 := v }

/-- The same change of each port's item. -/
def PerPort.map {α : Type} (f : Port → α → α) (x : PerPort α) : PerPort α :=
  ⟨f .port0 x.port0, f .port1 x.port1, f .port2 x.port2⟩

/-- One item for each of the two window ports. -/
structure PerWindow (α : Type) where
  window0 : α
  window1 : α
deriving DecidableEq, Repr

def PerWindow.get {α : Type} (x : PerWindow α) : WindowPort → α
  | .window0 => x.window0
  | .window1 => x.window1

def PerWindow.set {α : Type} (x : PerWindow α) : WindowPort → α → PerWindow α
  | .window0, v => { x with window0 := v }
  | .window1, v => { x with window1 := v }

/-! ### Codes -/

/-- Status of a response (R151, Table 8-2). -/
inductive Status where
  | ok | accepted | busy | starting | rebuilding | disabled | noSession | badRequest | unknownKey
  | badLength | range | denied | pinned | notAllowed | owned | limit | notFound | tooLate | empty
deriving DecidableEq, Repr

/-- Result of a job (R152, Table 8-3). -/
inductive Result where
  | none | done | withdrawn | journalFaulted | locked | denied | pinned | guardFailed | noSpace
  | notBlank | burnFault | notRevocable | revokeFault
deriving DecidableEq, Repr

/-- The layer a change report names (R23). -/
inductive Layer where
  | effective | pending
deriving DecidableEq, Repr

/-- The cause of a change (R23). -/
inductive Cause where
  | commit | pin | overlaySet | overlayClear | overlayExpired | sessionEnd
deriving DecidableEq, Repr

/-! ### The Settings Table and the Overlay Table -/

/-- A key record (R15, Table 1-5). -/
structure KeyRecord where
  key : Nat
  active : Bytes
  pending : Option Bytes
  pinned : Bool
  pinSeq : Option Nat
  provenance : Nat
deriving DecidableEq, Repr

/-- An overlay record (R107). `due` is the model's own mark: the tick that brings the count to 0 has been
taken and the removal (OVERLAY_EXPIRED) has not; the count then still reads 1, as R114 says of a request
taken before the expiry. -/
structure OverlayRecord where
  key : Nat
  value : Bytes
  ownerPort : Port
  ownerGeneration : Byte
  bound : Bool
  remaining : Option Nat
  due : Bool
deriving DecidableEq, Repr

/-! ### The Journal Array and what mirrors it -/

/-- The cells of the Journal Array that do not read 00h, by rising offset (R26). -/
abbrev Memory := List Host.Cell

/-- Classification of an entry (R37, R81). -/
inductive EntryState where
  | sealed | revoked | void | torn | corrupt
deriving DecidableEq, Repr

/-- A record of the Entry Index (R37). -/
structure IndexRecord where
  seq : Nat
  state : EntryState
  origin : Nat
  bodyOffset : Nat
  bodyLength : Nat
  count : Nat
  applied : Bool
deriving DecidableEq, Repr

/-- The journal state (R42); `opened` is OPEN. -/
inductive JournalState where
  | replaying | opened | full | faulted
deriving DecidableEq, Repr

/-- The six replay counts of a run (R88). -/
structure ReplayCounts where
  total : Nat
  applied : Nat
  revoked : Nat
  void : Nat
  torn : Nat
  corrupt : Nat
deriving DecidableEq, Repr

/-- Who holds the Journal Array (R44). -/
inductive Grant where
  | free | writer | replay
deriving DecidableEq, Repr

/-! ### Staging, the Burn Queue and the Journal Writer -/

/-- A staged action's operation (R49). -/
inductive ActionOp where
  | assign (value : Bytes)
  | retire
  | keep
deriving DecidableEq, Repr

/-- A staged action's guard (R49). -/
inductive Guard where
  | none
  | equals (value : Bytes)
  | untouched
deriving DecidableEq, Repr

/-- A staged action (R49). -/
structure Action where
  key : Nat
  op : ActionOp
  pin : Bool
  guard : Guard
deriving DecidableEq, Repr

/-- The state of a Staging List (R48). -/
inductive ListState where
  | empty | building | queued | burning
deriving DecidableEq, Repr

/-- A Staging List (R47). -/
structure StagingList where
  state : ListState
  actions : List Action
deriving DecidableEq, Repr

/-- What a job does (R57). -/
inductive JobKind where
  | commit
  | revoke (target : Nat)
deriving DecidableEq, Repr

/-- A job of the Burn Queue (R57). -/
structure Job where
  port : Port
  kind : JobKind
  generation : Byte
  notice : Bool
deriving DecidableEq, Repr

/-- The state of the Journal Writer (R61, Table 3-3). -/
inductive WriterState where
  | idle | precheck | body | entry | verify | seal | apply | voiding | revoking
deriving DecidableEq, Repr

/-- A moment of a job at which the manual lets another event fall between two effects of the writer. -/
inductive Moment where
  /-- The job waits for a pulse or a readback. -/
  | none
  /-- The job is granted, and none of its tests is made: a COMMIT in PRECHECK, a REVOKE in REVOKING (R59, R61, R76,
  R97). -/
  | granted
  /-- BODY has ended and body top has moved, and the slot is not begun; `whole` tells that no byte failed
  (R156). -/
  | bodyEnded (whole : Bool)
  /-- The entry is SEALED and its actions are not applied (R39, R41). -/
  | sealed
  /-- The actions are applied and their reports sent, and the job has not ended (R130). -/
  | applied
deriving DecidableEq, Repr

/-- The writer's active job (R61) and its plan: the directory slot and body range it burns into, the check
code of the planned body (R64), the bytes of the current step still to burn, in order, each with its
target, the pulses the first of them has taken (R27), and the moment it is held at (log entry 6). For a
REVOKE only the slot and the bytes count, and at the grant, before the tests, the job alone. -/
structure ActiveJob where
  job : Job
  slot : Nat
  bodyOffset : Nat
  bodyLength : Nat
  count : Nat
  crc : Word32
  todo : List (Nat × Byte)
  pulses : Nat
  moment : Moment
deriving DecidableEq, Repr

/-- The Last Commit record of a port (R74). -/
structure LastCommit where
  result : Result
  seq : Option Nat
  failIndex : Option Nat
  generation : Byte
deriving DecidableEq, Repr

/-! ### The Replay Engine -/

/-- The state of the Replay Engine (R77). -/
inductive ReplayState where
  | idle | startup | pending | rebuilding
deriving DecidableEq, Repr

/-- Who asked for a REBUILD (R77). -/
structure Requester where
  port : Port
  generation : Byte
  notice : Bool
deriving DecidableEq, Repr

/-- One key of a run's working result (R79). -/
structure WorkingKey where
  key : Nat
  value : Bytes
  pinned : Bool
  pinSeq : Option Nat
  provenance : Nat
deriving DecidableEq, Repr

/-- The working result of a run (R79); no port observes it. The directory bottom is
3000h − 16 × slots used (R80). -/
structure WorkingResult where
  keys : List WorkingKey
  index : List IndexRecord
  slotsUsed : Nat
  bodyTop : Nat
  counts : ReplayCounts
deriving DecidableEq, Repr

/-! ### Sessions and notices -/

/-- The fields a notice carries beside its tag, by kind (R131). -/
inductive NoticeBody where
  | valueChanged (key : Nat) (layer : Layer) (cause : Cause) (causePort : Port) (seq : Option Nat)
  | commitDone (result : Result) (seq : Option Nat)
  | revokeDone (result : Result) (seq : Nat)
  | rebuildDone (counts : ReplayCounts)
  | rebuilt (causePort : Port)
  | noticesLost (lostCount : Nat)
deriving DecidableEq, Repr

/-- A notice of a session's queue (R131, R133). -/
structure Notice where
  tag : Byte
  body : NoticeBody
deriving DecidableEq, Repr

/-- A Session Unit (R120). `headSent` is the mark of R138 and `lateCount` the count of R139; port 2 alone
uses the two. -/
structure Session where
  isOpen : Bool
  generation : Byte
  watches : List (Nat × Nat)
  queue : List Notice
  tagCounter : Byte
  lastRevoke : Result
  lastRevokeSeq : Option Nat
  lastCommit : LastCommit
  headSent : Bool
  lateCount : Nat
deriving DecidableEq, Repr

/-! ### Request Handlers -/

/-- A request record (R141). -/
structure Record where
  kind : Byte
  tag : Byte
  argLength : Nat
  args : Bytes
deriving DecidableEq, Repr

/-- A response record (R142); dataLength is the length of `data`. -/
structure Response where
  status : Status
  tag : Byte
  data : Bytes
deriving DecidableEq, Repr

/-- How far the service of the current request has come (R144, R145): not yet carried to the block that
owns its state; held by the arbiter (R45); answered, the answer not yet handed to the transport. -/
inductive Service where
  | waiting
  | held
  | answered (r : Response)
deriving DecidableEq, Repr

/-- A Request Handler's state (R143). -/
inductive HandlerState where
  | idle | executing
deriving DecidableEq, Repr

/-- A Request Handler (R143). `service` is the model's own: the part of the service that still lies ahead of
the current request, `waiting` while there is none. Port 2's handler alone holds a stored response and a
last tag. -/
structure Handler where
  state : HandlerState
  current : Option Record
  abandoned : Bool
  stored : Option Response
  lastTag : Byte
  service : Service
deriving DecidableEq, Repr

/-! ### Window ports -/

/-- The port state of a window port (R160, R161). -/
inductive PortState where
  | idle | submitted | answered | starting | disabled
deriving DecidableEq, Repr

/-- Where an SPI transaction stands: CS high, or past a command byte whose most significant bit made it a
write or a read (R159). On I2C it stays at `deselected`. -/
inductive SpiPhase where
  | deselected | writing | reading
deriving DecidableEq, Repr

/-- A window port (R157 to R165): the strap value latched at the end of the reset, the window's fields, the
window pointer, the SPI transaction, the byte the port last drove to the master, absent while it has driven none, and
the ATTN output, true while asserted. `csRises` is the model's own, given from outside and set by no command: for each
byte to come of SPI transactions in turn, the command byte among them, whether CS rises after it; past its end CS
stays low (log entry 8). -/
structure Window where
  strap : StrapPin
  state : PortState
  attnEnable : Byte
  overrun : Nat
  requestArea : Bytes
  responseArea : Bytes
  pointer : Byte
  spi : SpiPhase
  csRises : List Bool
  busOut : Option Byte
  attn : Bool
deriving DecidableEq, Repr

/-! ### The Link Engine -/

/-- The link state (R170), and `heldLow`, the interval between a link loss by a held line and the release of
the line (R177), in which the engine is in none of the five. -/
inductive LinkState where
  | off | idle | rx | turn | tx | heldLow
deriving DecidableEq, Repr

/-- A pending answer (R172): the stored response, or a BUSY frame with its tag. -/
inductive PendingAnswer where
  | response
  | busy (tag : Byte)
deriving DecidableEq, Repr

/-- The frame in TX (R173, R175). A NOTE is no longer `live` once its session has ended. -/
inductive Sending where
  | response
  | busy (tag : Byte)
  | note (live : Bool)
deriving DecidableEq, Repr

/-- The acknowledgement timer (R175): stopped, running with ticks left, or expired with the NOTE ready for
its resend. With 0 ticks left its expiry (ACK_TIMER_EXPIRY) is due. -/
inductive AckTimer where
  | stopped
  | running (left : Nat)
  | expired
deriving DecidableEq, Repr

/-- The Link Engine (chapter 10). `rxBits` is the bits of the frame in RX since its start mark (R168), and
`ackWindow` the latched LINK_ACK_WINDOW (R12). -/
structure Link where
  state : LinkState
  buffer : Bytes
  rxBits : List Bool
  pending : Option PendingAnswer
  sending : Option Sending
  sendCount : Nat
  timer : AckTimer
  crcErrors : Nat
  collisions : Nat
  losses : Nat
  ackWindow : Option Nat
deriving DecidableEq, Repr

/-! ### The part -/

/-- The part. Directory bottom and free space are computed from `slotsUsed` and `bodyTop` (R31, R32). -/
structure State where
  /-- The Journal Array (R26). -/
  array : Memory
  /-- Body top (R30). -/
  bodyTop : Nat
  /-- Slots used (R31). -/
  slotsUsed : Nat
  /-- The Entry Index (R37). -/
  index : List IndexRecord
  /-- The journal state (R42). -/
  journal : JournalState
  /-- The replay counts of the last installed run (R88). -/
  counts : ReplayCounts
  /-- The arbiter's grant (R44). -/
  grant : Grant
  /-- The Settings Table, in catalog position order (R15). -/
  table : List KeyRecord
  /-- The Overlay Table (R107). -/
  overlays : List OverlayRecord
  /-- The Burn Queue (R57). -/
  burnQueue : List Job
  /-- The Journal Writer's state (R61). -/
  writer : WriterState
  /-- The writer's active job (R61). -/
  active : Option ActiveJob
  /-- The Replay Engine's state (R77). -/
  replay : ReplayState
  /-- The Replay Engine's requester (R77). -/
  requester : Option Requester
  /-- The working result of the run in progress (R79). -/
  working : Option WorkingResult
  /-- The Staging Lists (R47). -/
  staging : PerPort StagingList
  /-- The Session Units (R120). -/
  session : PerPort Session
  /-- The Request Handlers (R143). -/
  handler : PerPort Handler
  /-- The window ports (R160). -/
  window : PerWindow Window
  /-- The Link Engine (R170). -/
  link : Link
  /-- The latched PORT_ENABLE; none while cleared (R13, R25). -/
  portEnable : Option Nat
  /-- The BURN_EN input, true while high (R28). -/
  burnEn : Bool
  /-- The RESET input, true while asserted (R77). -/
  resetAsserted : Bool
  /-- The model's own, changed by no command: whether another event may fall at each moment between two effects of
  a job, so that the writer waits there (log entry 6). -/
  pauses : Bool
  /-- The model's own: the commands that wait, first in, first out. -/
  pending : List Instr
deriving DecidableEq, Repr

/-! ### Reset values -/

/-- The reset form of a key record (R25). -/
def KeyRecord.resetForm (key : Nat) : KeyRecord :=
  { key := key
    active := match descriptor? key with
      | some d => d.default
      | none => []
    pending := none, pinned := false, pinSeq := none, provenance := 0 }

/-- The Settings Table in its reset form (R25). -/
def resetTable : List KeyRecord := catalogKeys.map KeyRecord.resetForm

/-- The working result after the DEFAULTS step (R79). -/
def WorkingResult.defaults : WorkingResult :=
  { keys := catalogKeys.map fun key =>
      { key := key
        value := match descriptor? key with
          | some d => d.default
          | none => []
        pinned := false, pinSeq := none, provenance := 0 }
    index := [], slotsUsed := 0, bodyTop := 0, counts := ⟨0, 0, 0, 0, 0, 0⟩ }

/-- A Staging List after a device reset (R47). -/
def StagingList.reset : StagingList := ⟨.empty, []⟩

/-- A Last Commit record after a device reset (R74). -/
def LastCommit.reset : LastCommit := ⟨.none, none, none, 0⟩

/-- A Session Unit after a device reset (R120, R140). -/
def Session.reset : Session :=
  { isOpen := false, generation := 0, watches := [], queue := [], tagCounter := 0, lastRevoke := .none,
    lastRevokeSeq := none, lastCommit := LastCommit.reset, headSent := false, lateCount := 0 }

/-- A Request Handler after a device reset (R143). -/
def Handler.reset : Handler :=
  { state := .idle, current := none, abandoned := false, stored := none, lastTag := 0, service := .waiting }

/-- A window port after a device reset, with the strap value read at its end (R167). DESIGN CHOICE (log entry 22): an
SPI transaction does not outlast the reset, though CS may have stayed low: no transaction is open and nothing is
driven until the next command byte, a point to which R167's table gives no value. -/
def Window.reset (strap : StrapPin) : Window :=
  { strap := strap, state := .starting, attnEnable := 1, overrun := 0,
    requestArea := List.replicate Config.areaBytes 0, responseArea := List.replicate Config.areaBytes 0,
    pointer := 0, spi := .deselected, csRises := [], busOut := none, attn := false }

/-- The Link Engine after a device reset (R179, Table 10-2). -/
def Link.reset : Link :=
  { state := .idle, buffer := List.replicate Config.linkBufferBytes 0, rxBits := [], pending := none,
    sending := none, sendCount := 0, timer := .stopped, crcErrors := 0, collisions := 0, losses := 0, ackWindow := none }

/-- The part right after a device reset has ended: every volatile block at its reset value (R25, R46, R47,
R57, R73, R74, R107, R120, R143, R167, R179), the Replay Engine in STARTUP past its DEFAULTS step with the
array granted to it (R77, R78, R44), the journal REPLAYING (R43), and the array as it left the factory, every
cell never burned (R26). DESIGN CHOICE (log entry 1): the straps read VDD and BURN_EN reads low. DESIGN CHOICE
(log entry 18): body top and slots used, for which R46 waits for the replay, stand at 0 until it installs. DESIGN
CHOICE (log entry 6): the steps of the writer are taken whole. DESIGN CHOICE (log entry 8): no rise of CS is listed. -/
def State.reset : State :=
  { array := [], bodyTop := 0, slotsUsed := 0, index := [], journal := .replaying,
    counts := ⟨0, 0, 0, 0, 0, 0⟩, grant := .replay, table := resetTable, overlays := [], burnQueue := [],
    writer := .idle, active := none, replay := .startup, requester := none,
    working := some WorkingResult.defaults,
    staging := ⟨StagingList.reset, StagingList.reset, StagingList.reset⟩,
    session := ⟨Session.reset, Session.reset, Session.reset⟩,
    handler := ⟨Handler.reset, Handler.reset, Handler.reset⟩,
    window := ⟨Window.reset .vdd, Window.reset .vdd⟩, link := Link.reset, portEnable := none,
    burnEn := false, resetAsserted := false, pauses := false, pending := [] }

/-! ### Stops -/

/-- Why a command stops the machine. -/
inductive Fault where
  /-- Raised by CELL_BIT_GAIN at an offset of 3000h or more: the Journal Array has no such cell (R26). Safe:
  no such event exists in the part. -/
  | noSuchCell (offset : Nat)
deriving DecidableEq, Repr

/-- Why a command has no meaning. -/
inductive Refusal where
  /-- Raised by an arm of `exec` for a command without a meaning; no arm of this model raises it. Safe. -/
  | notModelled (mnemonic : String)
deriving DecidableEq, Repr

end Sys2Proof.Machine
end

