-- ==== Sys2Proof/Machine/Ops.lean ====
section
/-! DEFINITION. The shared operations under every meaning: the Journal Array's cells (R26), the CRC-32 (R36),
the directory's layout (R31), and the accessors and updates of the state's per-port items. -/

namespace Sys2Proof.Machine

/-! ### The Journal Array -/

/-- The byte a cell reads: 00h where nothing is listed, as a cell never burned reads (R26). -/
def Memory.read : Memory → Nat → Byte
  | [], _ => 0
  | (a, b) :: rest, offset => if a = offset then b else Memory.read rest offset

/-- Put `value` at `offset` in the canonical form: rising offsets, no entry for a 00h cell. -/
def Memory.insert : Memory → Nat → Byte → Memory
  | [], offset, value => if value = 0 then [] else [(offset, value)]
  | (a, b) :: rest, offset, value =>
    if a < offset then (a, b) :: Memory.insert rest offset value
    else
      let tail := if a = offset then rest else (a, b) :: rest
      if value = 0 then tail else (offset, value) :: tail

/-- Write a cell of the array; there is no cell at 3000h or above (R26). -/
def Memory.write (m : Memory) (offset : Nat) (value : Byte) : Memory :=
  if offset < Config.arrayBytes then m.insert offset value else m

/-- Set bits of a cell; none is ever cleared (R26). -/
def Memory.setBits (m : Memory) (offset : Nat) (bits : Byte) : Memory :=
  m.write offset (m.read offset ||| bits)

/-- The bytes of `length` cells from `offset`, in ascending order (R45). -/
def Memory.readRange (m : Memory) (offset length : Nat) : Bytes :=
  (List.range length).map fun i => m.read (offset + i)

/-- The canonical form: offsets of the array, strictly rising, none reading 00h. -/
def Memory.wf : Memory → Bool
  | [] => true
  | [(a, b)] => a < Config.arrayBytes && b ≠ 0
  | (a, b) :: (c, d) :: rest => a < c && b ≠ 0 && Memory.wf ((c, d) :: rest)

/-- No cell of the range holds a bit (the blank test of R62). -/
def Memory.isBlank (m : Memory) (offset length : Nat) : Bool :=
  (m.readRange offset length).all (· = 0)

/-! ### The CRC-32 -/

/-- One shift of the code register (R36, step 2). -/
def crcShift (register : Word32) : Word32 :=
  if register.getLsbD 0 then (register >>> 1) ^^^ 0xEDB88320#32 else register >>> 1

/-- One byte taken into the code register (R36, step 2). -/
def crcByte (register : Word32) (b : Byte) : Word32 :=
  let r := register ^^^ b.zeroExtend 32
  crcShift (crcShift (crcShift (crcShift (crcShift (crcShift (crcShift (crcShift r)))))))

/-- The CRC-32 of a string of bytes (R36). -/
def crc32 (bytes : Bytes) : Word32 :=
  ~~~ (bytes.foldl crcByte 0xFFFFFFFF#32)

/-! ### The directory -/

/-- The first offset of directory slot `n` (R31). -/
def slotOffset (n : Nat) : Nat := Config.arrayBytes - Config.slotBytes * (n + 1)

/-- The directory bottom for a number of used slots (R31). -/
def directoryBottomOf (slotsUsed : Nat) : Nat := Config.arrayBytes - Config.slotBytes * slotsUsed

/-- Bytes with the offsets they are burned at, ascending from `offset`. -/
def burnsAt (offset : Nat) : Bytes → List (Nat × Byte)
  | [] => []
  | b :: rest => (offset, b) :: burnsAt (offset + 1) rest

/-! ### The state's per-port items -/

def State.setSession (s : State) (p : Port) (u : Session) : State :=
  { s with session := s.session.set p u }

def State.setStaging (s : State) (p : Port) (l : StagingList) : State :=
  { s with staging := s.staging.set p l }

def State.setHandler (s : State) (p : Port) (h : Handler) : State :=
  { s with handler := s.handler.set p h }

def State.setWindow (s : State) (w : WindowPort) (x : Window) : State :=
  { s with window := s.window.set w x }

def State.setLink (s : State) (l : Link) : State := { s with link := l }

/-- The window of a port; port 2 has none. -/
def windowOf : Port → Option WindowPort
  | .port0 => some .window0
  | .port1 => some .window1
  | .port2 => none

/-- One more, staying at `top` once there (R163, R178). -/
def countUp (top n : Nat) : Nat := if n < top then n + 1 else n

/-- The part takes events only while RESET is released (R77, R118, R167, R179); while it is asserted an
event changes nothing. -/
def State.running (s : State) (f : State → State) : State :=
  if s.resetAsserted then s else f s

end Sys2Proof.Machine
end

