-- ==== Sys2Proof/Machine/Flags.lean ====
section
/-! DEFINITION. The figures and lines that follow from the state: directory bottom, free space and the space
rule (R31, R32, R42), who is disabled (R13), what is sendable on the link (R170, R175), and the lines and
link state that follow every event (R165, R170). -/

namespace Sys2Proof.Machine

/-- Directory bottom (R31). -/
def State.directoryBottom (s : State) : Nat := directoryBottomOf s.slotsUsed

/-- Free space: directory bottom minus body top (R32). -/
def State.freeSpace (s : State) : Nat := s.directoryBottom - s.bodyTop

/-- The space rule: free space below 21 bytes, or 256 slots used (R42). -/
def spaceRule (bodyTop slotsUsed : Nat) : Bool :=
  directoryBottomOf slotsUsed - bodyTop < Config.smallestEntry || slotsUsed = Config.maxSlots

/-- The journal state a replay installs (R43). -/
def installedJournal (bodyTop slotsUsed : Nat) : JournalState :=
  if spaceRule bodyTop slotsUsed then .full else .opened

/-- The journal state after a job's end: OPEN becomes FULL where the space rule holds (R43). -/
def journalAfterJob (s : State) : JournalState :=
  if s.journal = .opened ∧ spaceRule s.bodyTop s.slotsUsed then .full else s.journal

/-- Port `p` is disabled by the latched PORT_ENABLE; port 0 never is, and no port is while the latch is
cleared (R13, R147). -/
def State.isDisabled (s : State) (p : Port) : Bool :=
  match p, s.portEnable with
  | .port0, _ => false
  | _, none => false
  | p, some v => !v.testBit p.number

/-- A NOTE is ready to send (R175): the session is open and the head is not marked sent, or is marked sent
with its timer expired and the send count below 4. -/
def State.noteReady (s : State) : Bool :=
  let u := s.session.get .port2
  u.isOpen && !u.queue.isEmpty &&
    (!u.headSent || (s.link.timer = .expired && s.link.sendCount < Config.maxSends))

/-- A frame is sendable (R170). -/
def State.sendable (s : State) : Bool := s.link.pending.isSome || s.noteReady

/-- The ATTN line of a window port is asserted (R165). -/
def State.attnHolds (s : State) (w : WindowPort) : Bool :=
  let x := s.window.get w
  (x.attnEnable.getLsbD 0 && !(s.session.get w.port).queue.isEmpty) ||
    (x.attnEnable.getLsbD 1 && x.state = .answered)

/-- An idle link enters TURN when a frame becomes sendable (R170). -/
def State.settleLink (s : State) : State :=
  if s.link.state = .idle ∧ s.sendable = true then s.setLink { s.link with state := .turn } else s

/-- Each ATTN line follows its two conditions (R165). -/
def State.settleAttn (s : State) : State :=
  { s with
    window :=
      { window0 := { s.window.window0 with attn := s.attnHolds .window0 }
        window1 := { s.window.window1 with attn := s.attnHolds .window1 } } }

/-- What follows every event at the moment of the event: the link notices a sendable frame, and the ATTN
lines follow their conditions. -/
def State.settle (s : State) : State := s.settleLink.settleAttn

end Sys2Proof.Machine
end

