-- ==== Sys2Proof/Machine/Operands.lean ====
section
/-! DEFINITION. Request records (R141, R148, R182): the kinds, their codes, the record a host sends for each
request command, and the reading of a record, which finds a malformed one. -/

namespace Sys2Proof.Machine

/-- A request read from its record: kind and arguments. -/
inductive Request where
  | get (key : Nat)
  | getDetail (key : Nat)
  | catalogRead (position : Nat)
  | openSession
  | closeSession
  | watch (first last : Nat)
  | unwatch (first last : Nat)
  | noticeRead
  | stageAssign (key : Nat) (value : Bytes) (guard : Guard)
  | stageRetire (key : Nat) (guard : Guard)
  | stagePin (key : Nat)
  | stageDrop (key : Nat)
  | stageClear
  | stageList (index : Nat)
  | commit
  | abort
  | commitResult
  | overlaySet (key : Nat) (value : Bytes) (lifetime : Nat) (bound : Bool)
  | overlayClear (key : Nat)
  | overlayList (index : Nat)
  | revoke (seq : Nat)
  | rebuild
  | journalStat
  | journalRead (offset length : Nat)
  | entryRead (seq : Nat)
  | linkStat (clear : Bool)
deriving DecidableEq, Repr

/-- The number a two-byte field carries (R180). -/
def number16 (high low : Byte) : Nat := high.toNat * 256 + low.toNat

/-- The two bytes of a two-byte field (R180). -/
def bytes16 (w : Word16) : Bytes := bytesOfNat 2 w.toNat

/-- A value field: a length byte, then the value's bytes (R180). -/
def valueField (value : Bytes) : Bytes := BitVec.ofNat 8 value.length :: value

/-- The guard code and the guard value field (R180, R182). -/
def guardField : GuardArg → Bytes
  | .none => [0x00]
  | .equals value => 0x01 :: valueField value
  | .untouched => [0x02]

/-- The flag codes (R180). -/
def flagByte (b : Bool) : Byte := if b then 1 else 0

/-- A flag argument: 00h or 01h, any other value malformed (R148). -/
def readFlag (b : Byte) : Option Bool :=
  if b = 0 then some false else if b = 1 then some true else none

/-- A guard argument: its code, and for EQUALS a value field that fills the record (R148, R182). -/
def readGuard : Bytes → Option Guard
  | [code] => if code = 0 then some .none else if code = 2 then some .untouched else none
  | code :: length :: value =>
    if code = 1 ∧ value.length = length.toNat then some (.equals value) else none
  | [] => none

/-- The bytes of a guard's value (R182's limit on STAGE_ASSIGN). -/
def Guard.length : Guard → Nat
  | .equals value => value.length
  | _ => 0

/-- STAGE_ASSIGN's arguments: key, value field, guard; the two declared lengths together at most 51 (R182). -/
def readStageAssign : Bytes → Option Request
  | high :: low :: length :: rest =>
    if rest.length < length.toNat then none
    else
      match readGuard (rest.drop length.toNat) with
      | none => none
      | some guard =>
        if length.toNat + guard.length ≤ 51 then
          some (.stageAssign (number16 high low) (rest.take length.toNat) guard)
        else none
  | _ => none

/-- STAGE_RETIRE's arguments: key, guard (R182). -/
def readStageRetire : Bytes → Option Request
  | high :: low :: rest =>
    match readGuard rest with
    | some guard => some (.stageRetire (number16 high low) guard)
    | none => none
  | _ => none

/-- OVERLAY_SET's arguments: key, value field, lifetime, bound flag (R182). -/
def readOverlaySet : Bytes → Option Request
  | high :: low :: length :: rest =>
    if rest.length < length.toNat then none
    else
      match rest.drop length.toNat with
      | [lifeHigh, lifeLow, flag] =>
        match readFlag flag with
        | some bound =>
          some (.overlaySet (number16 high low) (rest.take length.toNat) (number16 lifeHigh lifeLow) bound)
        | none => none
      | _ => none
  | _ => none

/-- The request kinds (Table 8-1). -/
inductive RequestKind where
  | get | getDetail | catalogRead | openSession | closeSession | watch | unwatch | noticeRead
  | stageAssign | stageRetire | stagePin | stageDrop | stageClear | stageList | commit | abort
  | commitResult | overlaySet | overlayClear | overlayList | revoke | rebuild | journalStat
  | journalRead | entryRead | linkStat
deriving DecidableEq, Repr

/-- The code of each request kind, as the rule that specifies the request gives it. -/
def RequestKind.code : RequestKind → Byte
  | .get => 0x01
  | .getDetail => 0x02
  | .catalogRead => 0x03
  | .openSession => 0x10
  | .closeSession => 0x11
  | .watch => 0x20
  | .unwatch => 0x21
  | .noticeRead => 0x22
  | .stageAssign => 0x30
  | .stageRetire => 0x31
  | .stagePin => 0x32
  | .stageDrop => 0x33
  | .stageClear => 0x34
  | .stageList => 0x35
  | .commit => 0x36
  | .abort => 0x37
  | .commitResult => 0x38
  | .overlaySet => 0x40
  | .overlayClear => 0x41
  | .overlayList => 0x42
  | .revoke => 0x51
  | .rebuild => 0x52
  | .journalStat => 0x53
  | .journalRead => 0x54
  | .entryRead => 0x55
  | .linkStat => 0x60

/-- Every request kind. -/
def requestKinds : List RequestKind :=
  [.get, .getDetail, .catalogRead, .openSession, .closeSession, .watch, .unwatch, .noticeRead,
   .stageAssign, .stageRetire, .stagePin, .stageDrop, .stageClear, .stageList, .commit, .abort,
   .commitResult, .overlaySet, .overlayClear, .overlayList, .revoke, .rebuild, .journalStat,
   .journalRead, .entryRead, .linkStat]

/-- The kind a code names; absent where it names none (R148). -/
def requestKind? (code : Byte) : Option RequestKind :=
  requestKinds.find? (·.code = code)

/-- No argument. -/
def readNone (q : Request) : Bytes → Option Request
  | [] => some q
  | _ => none

/-- One argument of one byte. -/
def readByteArg (f : Nat → Request) : Bytes → Option Request
  | [b] => some (f b.toNat)
  | _ => none

/-- One argument of two bytes. -/
def readWordArg (f : Nat → Request) : Bytes → Option Request
  | [high, low] => some (f (number16 high low))
  | _ => none

/-- Two arguments of two bytes each. -/
def readBounds (f : Nat → Nat → Request) : Bytes → Option Request
  | [firstHigh, firstLow, lastHigh, lastLow] =>
    some (f (number16 firstHigh firstLow) (number16 lastHigh lastLow))
  | _ => none

/-- JOURNAL_READ's arguments: offset, length (R182). -/
def readJournalRead : Bytes → Option Request
  | [high, low, length] => some (.journalRead (number16 high low) length.toNat)
  | _ => none

/-- LINK_STAT's argument: the clear flag (R182). -/
def readLinkStat : Bytes → Option Request
  | [flag] => (readFlag flag).map .linkStat
  | _ => none

/-- The arguments of a kind; absent where they are malformed for it (R148, R182). -/
def readArgs (kind : RequestKind) (args : Bytes) : Option Request :=
  match kind with
  | .get => readWordArg .get args
  | .getDetail => readWordArg .getDetail args
  | .catalogRead => readByteArg .catalogRead args
  | .openSession => readNone .openSession args
  | .closeSession => readNone .closeSession args
  | .watch => readBounds .watch args
  | .unwatch => readBounds .unwatch args
  | .noticeRead => readNone .noticeRead args
  | .stageAssign => readStageAssign args
  | .stageRetire => readStageRetire args
  | .stagePin => readWordArg .stagePin args
  | .stageDrop => readWordArg .stageDrop args
  | .stageClear => readNone .stageClear args
  | .stageList => readByteArg .stageList args
  | .commit => readNone .commit args
  | .abort => readNone .abort args
  | .commitResult => readNone .commitResult args
  | .overlaySet => readOverlaySet args
  | .overlayClear => readWordArg .overlayClear args
  | .overlayList => readByteArg .overlayList args
  | .revoke => readWordArg .revoke args
  | .rebuild => readNone .rebuild args
  | .journalStat => readNone .journalStat args
  | .journalRead => readJournalRead args
  | .entryRead => readWordArg .entryRead args
  | .linkStat => readLinkStat args

/-- The request a record asks for; absent where the record is malformed for its kind (R148). -/
def Record.request? (r : Record) : Option Request :=
  if r.argLength ≤ Config.maxArgs ∧ r.args.length = r.argLength then
    match requestKind? r.kind with
    | some kind => readArgs kind r.args
    | none => none
  else none

/-- The record a host sends: kind, tag and arguments, with the arguments' length (R141). -/
def Record.make (kind : Byte) (tag : Byte) (args : Bytes) : Record :=
  { kind := kind, tag := tag, argLength := args.length, args := args }

/-- A record of a known kind. -/
def RequestKind.record (kind : RequestKind) (tag : Byte) (args : Bytes) : Record :=
  Record.make kind.code tag args

/-- The bytes of a record as a master writes them into the request area (R182). -/
def Record.bytes (r : Record) : Bytes :=
  r.kind :: r.tag :: BitVec.ofNat 8 r.argLength :: r.args

/-- STAGE_ASSIGN's argument bytes (R182). -/
def stageAssignArgs (key : Word16) (value : Bytes) (guard : GuardArg) : Bytes :=
  bytes16 key ++ valueField value ++ guardField guard

/-- STAGE_RETIRE's argument bytes (R182). -/
def stageRetireArgs (key : Word16) (guard : GuardArg) : Bytes :=
  bytes16 key ++ guardField guard

/-- OVERLAY_SET's argument bytes (R182). -/
def overlaySetArgs (key : Word16) (value : Bytes) (lifetime : Word16) (bound : Bool) : Bytes :=
  bytes16 key ++ valueField value ++ bytes16 lifetime ++ [flagByte bound]

end Sys2Proof.Machine
end

