-- ==== Sys2Proof/Machine/Formats.lean ====
section
/-! DEFINITION. Chapter 11: the codes of R151, R152 and R180, and the byte layouts of responses, descriptors,
notices, link frames, directory entries and bodies (R181 to R183). -/

namespace Sys2Proof.Machine

/-! ### Codes -/

/-- Table 8-2. -/
def Status.code : Status → Byte
  | .ok => 0x00
  | .accepted => 0x01
  | .busy => 0x02
  | .starting => 0x03
  | .rebuilding => 0x04
  | .disabled => 0x05
  | .noSession => 0x06
  | .badRequest => 0x07
  | .unknownKey => 0x08
  | .badLength => 0x09
  | .range => 0x0A
  | .denied => 0x0B
  | .pinned => 0x0C
  | .notAllowed => 0x0D
  | .owned => 0x0E
  | .limit => 0x0F
  | .notFound => 0x10
  | .tooLate => 0x11
  | .empty => 0x12

/-- Table 8-3. -/
def Result.code : Result → Byte
  | .none => 0x00
  | .done => 0x01
  | .withdrawn => 0x02
  | .journalFaulted => 0x03
  | .locked => 0x04
  | .denied => 0x05
  | .pinned => 0x06
  | .guardFailed => 0x07
  | .noSpace => 0x08
  | .notBlank => 0x09
  | .burnFault => 0x0A
  | .notRevocable => 0x0B
  | .revokeFault => 0x0C

def Layer.code : Layer → Byte
  | .effective => 0x00
  | .pending => 0x01

def Cause.code : Cause → Byte
  | .commit => 0x01
  | .pin => 0x02
  | .overlaySet => 0x03
  | .overlayClear => 0x04
  | .overlayExpired => 0x05
  | .sessionEnd => 0x06

def EntryState.code : EntryState → Byte
  | .sealed => 0x01
  | .revoked => 0x02
  | .void => 0x03
  | .torn => 0x04
  | .corrupt => 0x05

def JournalState.code : JournalState → Byte
  | .replaying => 0x00
  | .opened => 0x01
  | .full => 0x02
  | .faulted => 0x03

/-- The replay state codes; no request is served in STARTUP, which has none (R147, R156). -/
def ReplayState.code : ReplayState → Byte
  | .idle => 0x00
  | .startup => 0x00
  | .pending => 0x01
  | .rebuilding => 0x02

def ListState.code : ListState → Byte
  | .empty => 0x00
  | .building => 0x01
  | .queued => 0x02
  | .burning => 0x03

def KeyKind.code : KeyKind → Byte
  | .scalar8 => 0x00
  | .scalar16 => 0x01
  | .scalar32 => 0x02
  | .blob => 0x03

def ApplyMode.code : ApplyMode → Byte
  | .live => 0x00
  | .deferred => 0x01

def ExtraRule.code : ExtraRule → Byte
  | .none => 0x00
  | .grantRule => 0x01

/-- Op codes of a body's actions; 80h is added for the pin flag (R180, R181). -/
def ActionOp.code : ActionOp → Nat
  | .assign _ => 0x01
  | .retire => 0x02
  | .keep => 0x03

def Guard.code : Guard → Byte
  | .none => 0x00
  | .equals _ => 0x01
  | .untouched => 0x02

/-- Port states (R160). -/
def PortState.code : PortState → Byte
  | .idle => 0x01
  | .submitted => 0x02
  | .answered => 0x03
  | .starting => 0x04
  | .disabled => 0x05

def portByte (p : Port) : Byte := BitVec.ofNat 8 p.number

/-! ### Fields -/

/-- One byte of a number. -/
def byteOf (n : Nat) : Byte := BitVec.ofNat 8 n

/-- A two-byte field. -/
def field16 (n : Nat) : Bytes := bytesOfNat 2 n

/-- seq, pinSeq and remaining: 0000h where absent (R180). -/
def optional16 (n : Option Nat) : Bytes := field16 (n.getD 0)

/-- failIndex: FFh where absent (R180). -/
def failIndexByte : Option Nat → Byte
  | some n => byteOf n
  | none => 0xFF

/-- A value field that may be absent: length byte FFh, no value bytes (R180). -/
def optionalValueField : Option Bytes → Bytes
  | some v => valueField v
  | none => [0xFF]

/-! ### Bodies and directory entries -/

/-- The value bytes an action carries in a body: RETIRE and KEEP carry none (R35). -/
def ActionOp.value : ActionOp → Bytes
  | .assign v => v
  | .retire => []
  | .keep => []

/-- The op byte: the op code, with 80h added for the pin flag (R180). -/
def Action.opByte (a : Action) : Byte := byteOf (a.op.code + if a.pin then 0x80 else 0)

/-- One action record of a body: op, key, len, value (R35, R181). -/
def Action.bytes (a : Action) : Bytes := a.opByte :: (field16 a.key ++ valueField a.op.value)

/-- A body: its count byte, then the action records in staging order (R35). -/
def bodyBytes (actions : List Action) : Bytes :=
  byteOf actions.length :: actions.flatMap Action.bytes

/-- The encoded body length: 1 plus 4 + len for each action (R47). -/
def encodedLength (actions : List Action) : Nat :=
  actions.foldl (fun n a => n + (4 + a.op.value.length)) 1

/-- Bytes 0 to 13 of a directory entry (R33, R181). -/
def entryBytes (kind : Byte) (seq origin count bodyOffset bodyLength : Nat) (crc : Word32) : Bytes :=
  [0xD5, kind] ++ field16 seq ++ [byteOf origin, byteOf count] ++ field16 bodyOffset ++
    field16 bodyLength ++ bytesOfNat 4 crc.toNat

/-! ### Responses -/

/-- The response record's bytes as they stand from 50h (R182). -/
def Response.bytes (r : Response) : Bytes :=
  r.status.code :: r.tag :: byteOf r.data.length :: r.data

/-- Table 11-2. -/
def Descriptor.bytes (d : Descriptor) : Bytes :=
  field16 d.key ++
    [byteOf d.position, d.kind.code, byteOf d.size, byteOf d.keyClass, d.applyMode.code,
     flagByte d.overlayPermitted] ++
    bytesOfNat 4 d.minimum ++ bytesOfNat 4 d.maximum ++ [d.extraRule.code] ++ valueField d.default

/-- The six counts, two bytes each (R182, R183). -/
def ReplayCounts.bytes (c : ReplayCounts) : Bytes :=
  field16 c.total ++ field16 c.applied ++ field16 c.revoked ++ field16 c.void ++ field16 c.torn ++
    field16 c.corrupt

/-- A guard in STAGE_LIST data (R182). -/
def Guard.bytes (g : Guard) : Bytes :=
  match g with
  | .equals v => g.code :: valueField v
  | _ => [g.code]

/-- ENTRY_READ data (R182). -/
def IndexRecord.bytes (r : IndexRecord) : Bytes :=
  field16 r.seq ++ [r.state.code, byteOf r.origin] ++ field16 r.bodyOffset ++ field16 r.bodyLength ++
    [byteOf r.count, flagByte r.applied]

/-- OVERLAY_LIST data after the record count (R182). -/
def OverlayRecord.bytes (o : OverlayRecord) : Bytes :=
  field16 o.key ++ valueField o.value ++ [portByte o.ownerPort, o.ownerGeneration, flagByte o.bound] ++
    optional16 o.remaining

/-- The overlay summary of GET_DETAIL (R112, R182). -/
def overlaySummary : Option OverlayRecord → Bytes
  | none => optionalValueField none
  | some o => valueField o.value ++ [portByte o.ownerPort, flagByte o.bound] ++ optional16 o.remaining

/-! ### Notices -/

/-- Notice kinds (R180). -/
def NoticeBody.code : NoticeBody → Byte
  | .valueChanged .. => 0x01
  | .commitDone .. => 0x02
  | .revokeDone .. => 0x03
  | .rebuildDone .. => 0x04
  | .rebuilt .. => 0x05
  | .noticesLost .. => 0x06

/-- Table 11-3. -/
def NoticeBody.bytes : NoticeBody → Bytes
  | .valueChanged key layer cause port seq =>
    field16 key ++ [layer.code, cause.code, portByte port] ++ optional16 seq
  | .commitDone result seq => result.code :: optional16 seq
  | .revokeDone result seq => result.code :: field16 seq
  | .rebuildDone counts => counts.bytes
  | .rebuilt port => [portByte port]
  | .noticesLost count => [byteOf count]

/-! ### Link frames -/

/-- The frame types (R169, R183). -/
inductive FrameType where
  | req | rsp | note | ack | reset | busy
deriving DecidableEq, Repr

def FrameType.code : FrameType → Byte
  | .req => 0x01
  | .rsp => 0x02
  | .note => 0x03
  | .ack => 0x04
  | .reset => 0x05
  | .busy => 0x06

def frameType? (b : Byte) : Option FrameType :=
  [FrameType.req, .rsp, .note, .ack, .reset, .busy].find? (·.code = b)

/-- The header and payload of a frame (R169). -/
def frameHead (type : FrameType) (tag code : Byte) (payload : Bytes) : Bytes :=
  type.code :: tag :: code :: byteOf payload.length :: payload

/-- The bytes of a frame between its marks: header, payload, check code (R169). -/
def frameBytes (type : FrameType) (tag code : Byte) (payload : Bytes) : Bytes :=
  let head := frameHead type tag code payload
  head ++ bytesOfNat 4 (crc32 head).toNat

/-- The frame the bytes between the marks make, where none of R169's tests discards it: a length field of at
most 60 that agrees with the byte count, a known type, a matching check code, and no payload in an ACK or a
RESET. -/
def readFrame (bytes : Bytes) : Option (FrameType × Byte × Byte × Bytes) :=
  match bytes with
  | type :: tag :: code :: length :: rest =>
    if length.toNat ≤ Config.maxArgs ∧ rest.length = length.toNat + 4 then
      let payload := rest.take length.toNat
      match frameType? type with
      | none => none
      | some t =>
        if bytesOfNat 4 (crc32 (type :: tag :: code :: length :: payload)).toNat ≠ rest.drop length.toNat then
          none
        else if (t = .ack ∨ t = .reset) ∧ length ≠ 0 then none
        else some (t, tag, code, payload)
    else none
  | _ => none

/-- `bytes` loaded into the link buffer from its first byte; the bytes beyond them stay (log entry 10). -/
def loadBuffer (buffer bytes : Bytes) : Bytes :=
  bytes.take Config.linkBufferBytes ++ buffer.drop bytes.length

end Sys2Proof.Machine
end

