-- ==== Sys2Proof/Machine/Settings.lean ====
section
/-! DEFINITION. The Settings Table: its reads (R8, R18 to R20), a patch apply (R22) and the change reports that
an update makes (R23). -/

namespace Sys2Proof.Machine

/-! ### Reads -/

/-- The record of a key; every catalog key has one (section 1.3). -/
def State.keyRecord? (s : State) (key : Nat) : Option KeyRecord :=
  s.table.find? (·.key = key)

/-- A key's active value (R15). -/
def State.activeValue (s : State) (key : Nat) : Bytes :=
  match s.keyRecord? key with
  | some r => r.active
  | none => []

/-- The number a scalar key holds in active. -/
def State.activeNumber (s : State) (key : Nat) : Nat := natOfBytes (s.activeValue key)

/-- The overlay on a key (R107). -/
def State.overlay? (s : State) (key : Nat) : Option OverlayRecord :=
  s.overlays.find? (·.key = key)

/-- A key's effective value: its overlay's value when it has one, else its active value (R19). -/
def State.effectiveValue (s : State) (key : Nat) : Bytes :=
  match s.overlay? key with
  | some o => o.value
  | none => s.activeValue key

/-- A key's pending value (R15). -/
def State.pendingValue (s : State) (key : Nat) : Option Bytes :=
  match s.keyRecord? key with
  | some r => r.pending
  | none => none

/-- A key's journal value: pending where present, else active (R18). -/
def KeyRecord.journalValue (r : KeyRecord) : Bytes := r.pending.getD r.active

/-- A key is pinned (R16). -/
def State.isPinned (s : State) (key : Nat) : Bool :=
  match s.keyRecord? key with
  | some r => r.pinned
  | none => false

/-- Port `p` holds class `c` under the GRANT_MAP value in effect (R8). -/
def State.holdsClass (s : State) (p : Port) (c : Nat) : Bool :=
  (s.activeNumber keyGrantMap).testBit (8 * p.number + c)

/-- The index record of a sequence number (R37). -/
def State.entry? (s : State) (seq : Nat) : Option IndexRecord :=
  s.index.find? (·.seq = seq)

/-- A key is stale: its provenance names an entry the index shows REVOKED (R20). -/
def State.isStale (s : State) (r : KeyRecord) : Bool :=
  r.provenance ≠ 0 &&
    match s.entry? r.provenance with
    | some e => e.state = .revoked
    | none => false

/-! ### The patch apply -/

/-- A new journal value in the layer the key's apply mode gives, keeping the law of R15 (R5, R22). -/
def KeyRecord.setJournalValue (r : KeyRecord) (mode : ApplyMode) (value : Bytes) : KeyRecord :=
  match mode with
  | .live => { r with active := value, pending := none }
  | .deferred => { r with pending := if value = r.active then none else some value }

/-- What one action of entry `seq` makes of its key's record (R22). -/
def KeyRecord.applyAction (r : KeyRecord) (d : Descriptor) (seq : Nat) (a : Action) : KeyRecord :=
  let valued :=
    match a.op with
    | .assign v => { r.setJournalValue d.applyMode v with provenance := seq }
    | .retire => { r.setJournalValue d.applyMode d.default with provenance := seq }
    | .keep => r
  if a.pin then { valued with pinned := true, pinSeq := some seq } else valued

/-- One action applied to the table (R22). -/
def applyToTable (seq : Nat) (table : List KeyRecord) (a : Action) : List KeyRecord :=
  match descriptor? a.key with
  | none => table
  | some d => table.map fun r => if r.key = a.key then r.applyAction d seq a else r

/-- A pinning action of the list names the key. -/
def pinsKey (actions : List Action) (key : Nat) : Bool :=
  actions.any fun a => a.pin && a.key = key

/-- The layers after a patch apply: the actions applied in order, the overlays on pinned keys removed (R22). -/
def State.applyActions (s : State) (seq : Nat) (actions : List Action) : State :=
  { s with
    table := actions.foldl (applyToTable seq) s.table
    overlays := s.overlays.filter fun o => !pinsKey actions o.key }

/-! ### Change reports -/

/-- A change report (R23). -/
structure Report where
  key : Nat
  layer : Layer
  cause : Cause
  causePort : Port
  seq : Option Nat
deriving DecidableEq, Repr

/-- The reports one key's change makes, EFFECTIVE first (R23). -/
def keyReports (before after : State) (key : Nat) (cause : Cause) (port : Port) (seq : Option Nat) :
    List Report :=
  (if before.effectiveValue key = after.effectiveValue key then []
    else [⟨key, .effective, cause, port, seq⟩]) ++
  (if before.pendingValue key = after.pendingValue key then []
    else [⟨key, .pending, cause, port, seq⟩])

/-- The reports of a patch apply, in action order: cause PIN where the apply removed an overlay on the key,
COMMIT otherwise (R23). -/
def applyReports (before after : State) (actions : List Action) (origin : Port) (seq : Nat) :
    List Report :=
  actions.flatMap fun a =>
    let removed := a.pin && (before.overlay? a.key).isSome
    keyReports before after a.key (if removed then .pin else .commit) origin (some seq)

end Sys2Proof.Machine
end

