-- ==== Sys2Proof/Machine/Notices.lean ====
section
/-! DEFINITION. Notice queues: the arrival rule (R134 to R136), tags (R133), the filtering of change reports
through watch lists (R130), and the leaving of the head by acknowledgement (R138, R139). -/

namespace Sys2Proof.Machine

/-- The notice is a NOTICES_LOST marker (R136). -/
def Notice.isMarker (n : Notice) : Bool :=
  match n.body with
  | .noticesLost _ => true
  | _ => false

/-- A VALUE_CHANGED notice for the key and layer (R134). -/
def Notice.tells (n : Notice) (key : Nat) (layer : Layer) : Bool :=
  match n.body with
  | .valueChanged k l _ _ _ => k = key && l = layer
  | _ => false

/-- The queue with its first notice for the key and layer updated in place to `body`; absent where none
stands (R135). -/
def coalesceInto (key : Nat) (layer : Layer) (body : NoticeBody) : List Notice → Option (List Notice)
  | [] => none
  | n :: rest =>
    if n.tells key layer then some ({ n with body := body } :: rest)
    else (coalesceInto key layer body rest).map (n :: ·)

/-- The queue after test 1 of R134; absent where the test does not apply. A head marked sent is no longer
undelivered (R138). -/
def Session.coalesce? (u : Session) (body : NoticeBody) : Option (List Notice) :=
  match body with
  | .valueChanged key layer _ _ _ =>
    match u.headSent, u.queue with
    | true, h :: rest => (coalesceInto key layer body rest).map (h :: ·)
    | _, queue => coalesceInto key layer body queue
  | _ => none

/-- A notice joins the queue at its end with the next tag (R133). -/
def Session.push (u : Session) (body : NoticeBody) : Session :=
  { u with
    queue := u.queue ++ [⟨u.tagCounter + 1, body⟩]
    tagCounter := u.tagCounter + 1 }

/-- One more arrival counted into a marker, up to 255 (R134). -/
def Notice.countLost (n : Notice) : Notice :=
  match n.body with
  | .noticesLost count => { n with body := .noticesLost (countUp 255 count) }
  | _ => n

/-- The head is a marker that has been sent (R139). -/
def Session.sentMarker (u : Session) : Bool :=
  u.headSent &&
    match u.queue with
    | h :: _ => h.isMarker
    | [] => false

/-- The arrival rule: coalescing, marker present, room, overflow (R134). -/
def Session.arrive (u : Session) (body : NoticeBody) : Session :=
  match u.coalesce? body with
  | some queue => { u with queue := queue }
  | none =>
    if u.queue.any Notice.isMarker then
      { u with
        queue := u.queue.map Notice.countLost
        lateCount := if u.sentMarker then countUp 255 u.lateCount else u.lateCount }
    else if u.queue.length ≤ Config.noticeRoom then u.push body
    else u.push (.noticesLost 1)

/-- A range of the watch list covers the key (R127). -/
def Session.watchesKey (u : Session) (key : Nat) : Bool :=
  u.watches.any fun r => r.1 ≤ key && key ≤ r.2

/-- A Session Unit takes one change report (R130). -/
def Session.takeReport (u : Session) (r : Report) : Session :=
  if u.isOpen && u.watchesKey r.key then
    u.arrive (.valueChanged r.key r.layer r.cause r.causePort r.seq)
  else u

/-- The reports of one update reach all three Session Units, in order (R23, R130). -/
def State.sendReports (s : State) (reports : List Report) : State :=
  { s with session := s.session.map fun _ u => reports.foldl Session.takeReport u }

/-- A notice posted to one port's session (R132). -/
def State.post (s : State) (p : Port) (body : NoticeBody) : State :=
  s.setSession p ((s.session.get p).arrive body)

/-- The head leaves by an acknowledgement: a marker into which arrivals were counted since its last send is
kept with that count and a new tag, and is unsent again; any other head is removed (R138, R139). -/
def Session.acknowledge (u : Session) : Session :=
  match u.queue with
  | [] => u
  | h :: rest =>
    if h.isMarker = true ∧ u.lateCount ≠ 0 then
      { u with
        queue := ⟨u.tagCounter + 1, .noticesLost u.lateCount⟩ :: rest
        tagCounter := u.tagCounter + 1, headSent := false, lateCount := 0 }
    else { u with queue := rest, headSent := false, lateCount := 0 }

/-- The head is marked sent and its count of later arrivals restarts (R138, R139). -/
def Session.markSent (u : Session) : Session := { u with headSent := true, lateCount := 0 }

end Sys2Proof.Machine
end

