-- ==== Sys2Proof/Machine/Sessions.lean ====
section
/-! DEFINITION. The end of a session and what it hands to the other blocks (R60, R96, R115, R124, R125, R175),
and the session requests OPEN, CLOSE, WATCH, UNWATCH and NOTICE_READ (R122, R123, R128, R129, R137). -/

namespace Sys2Proof.Machine

/-- What a block makes of a request carried to it: the answer's status and data, or a read the arbiter holds
(R144, R45). -/
inductive Reply where
  | answer (status : Status) (data : Bytes)
  | held
deriving DecidableEq, Repr

/-- A refusal: no change, no data (R142). -/
def refuse (s : State) (status : Status) : State × Reply := (s, .answer status [])

/-- The Session Unit of an ended session (R124): generation, tag counter and Last Commit record are kept. -/
def Session.ended (u : Session) : Session :=
  { u with
    isOpen := false, watches := [], queue := [], lastRevoke := .none, lastRevokeSeq := none,
    headSent := false, lateCount := 0 }

/-- The queued job of a port, with the queue it leaves behind (R59, R60, R96). -/
def State.withoutJobs (s : State) (p : Port) : State :=
  { s with burnQueue := s.burnQueue.filter (·.port ≠ p) }

/-- The generation a port's queued job holds; its session's where none is queued (R57, R59). -/
def State.queuedGeneration (s : State) (p : Port) : Byte :=
  match s.burnQueue.find? (·.port = p) with
  | some j => j.generation
  | none => (s.session.get p).generation

/-- WITHDRAWN written into the port's Last Commit record (R74). -/
def State.recordWithdrawn (s : State) (p : Port) (generation : Byte) : State :=
  s.setSession p { s.session.get p with lastCommit := ⟨.withdrawn, none, none, generation⟩ }

/-- A session end at the port's Staging List and queued job (R60, R96). -/
def State.endStaging (s : State) (p : Port) : State :=
  match (s.staging.get p).state with
  | .queued =>
    ((s.recordWithdrawn p (s.queuedGeneration p)).withoutJobs p).setStaging p ⟨.empty, []⟩
  | .burning => s.withoutJobs p
  | .building => (s.withoutJobs p).setStaging p ⟨.empty, []⟩
  | .empty => s.withoutJobs p

/-- A session end clears the notice flags of the port's active job and REBUILD request (R57, R77, R125). -/
def State.endClaims (s : State) (p : Port) : State :=
  { s with
    active := s.active.map fun a =>
      if a.job.port = p then { a with job := { a.job with notice := false } } else a
    requester := s.requester.map fun r => if r.port = p then { r with notice := false } else r }

/-- The reports of removing the overlays `removed`, in key order, each with its cause port (R23). -/
def removalReports (before after : State) (removed : List OverlayRecord) (cause : Cause)
    (port : OverlayRecord → Port) : List Report :=
  removed.flatMap fun o => keyReports before after o.key cause (port o) none

/-- Remove every overlay that `gone` names, as one overlay change with its reports (R21, R23). -/
def State.removeOverlays (s : State) (gone : OverlayRecord → Bool) (cause : Cause)
    (port : OverlayRecord → Port) : State :=
  let after := { s with overlays := s.overlays.filter fun o => !gone o }
  after.sendReports (removalReports s after (s.overlays.filter gone) cause port)

/-- A session end removes the port's bound overlays (R115). -/
def State.endOverlays (s : State) (p : Port) : State :=
  s.removeOverlays (fun o => o.bound && o.ownerPort = p) .sessionEnd fun _ => p

/-- A session end on port 2 stops the acknowledgement timer and clears the send count; a NOTE in TX starts
no timer (R175). -/
def State.endNotices (s : State) (p : Port) : State :=
  match p with
  | .port2 =>
    s.setLink
      { s.link with
        timer := .stopped, sendCount := 0
        sending := match s.link.sending with
          | some (.note _) => some (.note false)
          | other => other }
  | _ => s

/-- The end of a port's open session, as one event; nothing on a CLOSED port (R124, R125). -/
def State.endSession (s : State) (p : Port) : State :=
  if (s.session.get p).isOpen then
    let closed := s.setSession p (s.session.get p).ended
    ((((closed.endStaging p).endClaims p).endNotices p).endOverlays p)
  else s

/-- A new session of the port, after the end of any old one (R122). -/
def State.openSession (s : State) (p : Port) : State :=
  let s := s.endSession p
  let u := s.session.get p
  s.setSession p
    { u with
      isOpen := true, generation := u.generation + 1, watches := [], queue := [], tagCounter := 0,
      lastRevoke := .none, lastRevokeSeq := none, headSent := false, lateCount := 0 }

/-- OPEN (R122). -/
def serveOpen (s : State) (p : Port) : State × Reply :=
  let opened := s.openSession p
  (opened, .answer .ok [(opened.session.get p).generation, flagByte (s.session.get p).isOpen])

/-- CLOSE (R123). -/
def serveClose (s : State) (p : Port) : State × Reply :=
  if !(s.session.get p).isOpen then refuse s .noSession
  else (s.endSession p, .answer .ok [])

/-- WATCH (R128). The number of ranges held is carried in one byte (DESIGN CHOICE, log entry 20). -/
def serveWatch (s : State) (p : Port) (first last : Nat) : State × Reply :=
  let u := s.session.get p
  if !u.isOpen then refuse s .noSession
  else if 0xFFF < first ∨ 0xFFF < last ∨ last < first then refuse s .range
  else if Config.maxWatches ≤ u.watches.length then refuse s .limit
  else
    (s.setSession p { u with watches := u.watches ++ [(first, last)] },
      .answer .ok [byteOf (u.watches.length + 1)])

/-- UNWATCH: the oldest range equal to the arguments is removed (R129). The number of ranges held is carried in
one byte (DESIGN CHOICE, log entry 20). -/
def serveUnwatch (s : State) (p : Port) (first last : Nat) : State × Reply :=
  let u := s.session.get p
  if !u.isOpen then refuse s .noSession
  else if (first, last) ∈ u.watches then
    (s.setSession p { u with watches := u.watches.erase (first, last) },
      .answer .ok [byteOf (u.watches.length - 1)])
  else refuse s .notFound

/-- NOTICE_READ (R137). The number of notices left is carried in one byte (DESIGN CHOICE, log entry 20). -/
def serveNoticeRead (s : State) (p : Port) : State × Reply :=
  let u := s.session.get p
  if !u.isOpen then refuse s .noSession
  else if p = .port2 then refuse s .notAllowed
  else
    match u.queue with
    | [] => refuse s .empty
    | n :: rest =>
      (s.setSession p { u with queue := rest },
        .answer .ok ([byteOf rest.length, n.body.code, n.tag] ++ n.body.bytes))

end Sys2Proof.Machine
end

