-- ==== Sys2Proof/Machine/Staging.lean ====
section
/-! DEFINITION. The Staging List and its requests (R47 to R56), ABORT (R59) and COMMIT_RESULT (R75). -/

namespace Sys2Proof.Machine

/-- The law of R47 that check 8 keeps: at most 24 actions and an encoded body of at most 512 bytes. -/
def fitsList (actions : List Action) : Bool :=
  actions.length ≤ Config.maxActions && encodedLength actions ≤ Config.maxBody

/-- The list holds an action on the key. -/
def stages (actions : List Action) (key : Nat) : Bool := actions.any (·.key = key)

/-- An action appended, or put in the place of the one on its key with that one's pin flag (R51). -/
def stageAction (actions : List Action) (key : Nat) (op : ActionOp) (guard : Guard) : List Action :=
  if stages actions key then
    actions.map fun a => if a.key = key then { a with op := op, guard := guard } else a
  else actions ++ [⟨key, op, false, guard⟩]

/-- The pin flag set on the key's action, or a pinned KEEP appended (R53). -/
def stagePinFlag (actions : List Action) (key : Nat) : List Action :=
  if stages actions key then
    actions.map fun a => if a.key = key then { a with pin := true } else a
  else actions ++ [⟨key, .keep, true, .none⟩]

/-- A list with these actions: EMPTY without any, BUILDING otherwise (R48). -/
def listOf (actions : List Action) : StagingList :=
  ⟨if actions = [] then .empty else .building, actions⟩

/-- Checks 1 and 2 of R50: the session is open, the list is EMPTY or BUILDING. -/
def stagingRefusal (s : State) (p : Port) : Option Status :=
  if !(s.session.get p).isOpen then some .noSession
  else
    match (s.staging.get p).state with
    | .queued => some .busy
    | .burning => some .busy
    | _ => none

/-- An EQUALS guard's value has the key's form (check 4 of R50). -/
def Guard.hasForm (g : Guard) (d : Descriptor) : Bool :=
  match g with
  | .equals v => d.hasForm v
  | _ => true

/-- Checks 6 to 8 of R50 and, where they pass, the change of the list (R48). -/
def stageChange (s : State) (p : Port) (d : Descriptor) (actions : List Action) : State × Reply :=
  if !s.holdsClass p d.keyClass then refuse s .denied
  else if s.isPinned d.key then refuse s .pinned
  else if !fitsList actions then refuse s .limit
  else (s.setStaging p (listOf actions), .answer .ok [])

/-- STAGE_ASSIGN (R50, R51). -/
def serveStageAssign (s : State) (p : Port) (key : Nat) (value : Bytes) (guard : Guard) : State × Reply :=
  match stagingRefusal s p with
  | some status => refuse s status
  | none =>
    match descriptor? key with
    | none => refuse s .unknownKey
    | some d =>
      if !(d.hasForm value && guard.hasForm d) then refuse s .badLength
      else if !d.inRange value then refuse s .range
      else stageChange s p d (stageAction (s.staging.get p).actions key (.assign value) guard)

/-- STAGE_RETIRE (R50, R52). -/
def serveStageRetire (s : State) (p : Port) (key : Nat) (guard : Guard) : State × Reply :=
  match stagingRefusal s p with
  | some status => refuse s status
  | none =>
    match descriptor? key with
    | none => refuse s .unknownKey
    | some d =>
      if !guard.hasForm d then refuse s .badLength
      else stageChange s p d (stageAction (s.staging.get p).actions key .retire guard)

/-- STAGE_PIN (R50, R53). -/
def serveStagePin (s : State) (p : Port) (key : Nat) : State × Reply :=
  match stagingRefusal s p with
  | some status => refuse s status
  | none =>
    match descriptor? key with
    | none => refuse s .unknownKey
    | some d => stageChange s p d (stagePinFlag (s.staging.get p).actions key)

/-- STAGE_DROP (R50, R54). -/
def serveStageDrop (s : State) (p : Port) (key : Nat) : State × Reply :=
  match stagingRefusal s p with
  | some status => refuse s status
  | none =>
    let actions := (s.staging.get p).actions
    if (descriptor? key).isNone then refuse s .unknownKey
    else if !stages actions key then refuse s .notFound
    else (s.setStaging p (listOf (actions.filter (·.key ≠ key))), .answer .ok [])

/-- STAGE_CLEAR (R50, R55). -/
def serveStageClear (s : State) (p : Port) : State × Reply :=
  match stagingRefusal s p with
  | some status => refuse s status
  | none => (s.setStaging p ⟨.empty, []⟩, .answer .ok [])

/-- The STAGE_LIST data of one action: action count, encoded body length, then key, op with its pin flag,
value field and guard (R56, R182). -/
def stageListData (actions : List Action) (a : Action) : Bytes :=
  byteOf actions.length ::
    (field16 (encodedLength actions) ++ field16 a.key ++
      a.opByte :: (valueField a.op.value ++ a.guard.bytes))

/-- STAGE_LIST (R50, R56). -/
def serveStageList (s : State) (p : Port) (index : Nat) : State × Reply :=
  match stagingRefusal s p with
  | some status => refuse s status
  | none =>
    let actions := (s.staging.get p).actions
    match actions[index]? with
    | none => refuse s .range
    | some a => (s, .answer .ok (stageListData actions a))

/-- ABORT (R59). -/
def serveAbort (s : State) (p : Port) : State × Reply :=
  if !(s.session.get p).isOpen then refuse s .noSession
  else
    match (s.staging.get p).state with
    | .queued =>
      (((s.recordWithdrawn p (s.queuedGeneration p)).withoutJobs p).setStaging p
          ⟨.building, (s.staging.get p).actions⟩,
        .answer .ok [])
    | .burning => refuse s .tooLate
    | _ => refuse s .notFound

/-- COMMIT_RESULT (R75, R182). -/
def serveCommitResult (s : State) (p : Port) : State × Reply :=
  let c := (s.session.get p).lastCommit
  let l := s.staging.get p
  (s, .answer .ok
    (c.result.code :: (optional16 c.seq ++
      [failIndexByte c.failIndex, c.generation, l.state.code, byteOf l.actions.length])))

end Sys2Proof.Machine
end

