-- ==== Sys2Proof/Machine/Overlays.lean ====
section
/-! DEFINITION. The Overlay Table's requests (R109 to R112) and the Overlay Timer (R113). -/

namespace Sys2Proof.Machine

/-- A lifetime that OVERLAY_CAP accepts: any with a cap of 0, else 1 up to the cap (R11). -/
def acceptsLifetime (cap lifetime : Nat) : Bool :=
  cap = 0 || (1 ≤ lifetime && lifetime ≤ cap)

/-- A record put in key order, in place of one on the same key (R107, R110). -/
def insertOverlay (o : OverlayRecord) : List OverlayRecord → List OverlayRecord
  | [] => [o]
  | x :: rest =>
    if x.key < o.key then x :: insertOverlay o rest
    else if x.key = o.key then o :: rest
    else o :: x :: rest

/-- The overlay change of an accepted OVERLAY_SET, with its report (R110). -/
def State.setOverlay (s : State) (p : Port) (key : Nat) (value : Bytes) (lifetime : Nat) (bound : Bool) :
    State :=
  let record : OverlayRecord :=
    { key := key, value := value, ownerPort := p, ownerGeneration := (s.session.get p).generation,
      bound := bound, remaining := if lifetime = 0 then none else some lifetime, due := false }
  let after := { s with overlays := insertOverlay record s.overlays }
  after.sendReports (keyReports s after key .overlaySet p none)

/-- A REBUILD run holds the array (R93). -/
def State.rebuildRuns (s : State) : Bool := s.replay = .rebuilding

/-- Tests 10 and 11 of Table 6-1: another port's overlay, a full table. -/
def overlayRoomRefusal (s : State) (p : Port) (key : Nat) : Option Status :=
  match s.overlay? key with
  | some o => if o.ownerPort = p then none else some .owned
  | none => if s.overlays.length < Config.maxOverlays then none else some .limit

/-- OVERLAY_SET: the tests of Table 6-1 in order (R109, R110). -/
def serveOverlaySet (s : State) (p : Port) (key : Nat) (value : Bytes) (lifetime : Nat) (bound : Bool) :
    State × Reply :=
  if !(s.session.get p).isOpen then refuse s .noSession
  else if s.rebuildRuns then refuse s .rebuilding
  else
    match descriptor? key with
    | none => refuse s .unknownKey
    | some d =>
      if !d.overlayPermitted then refuse s .notAllowed
      else if !d.hasForm value then refuse s .badLength
      else if !d.inRange value then refuse s .range
      else if !s.holdsClass p d.keyClass then refuse s .denied
      else if s.isPinned key then refuse s .pinned
      else if !acceptsLifetime (s.activeNumber keyOverlayCap) lifetime then refuse s .range
      else
        match overlayRoomRefusal s p key with
        | some status => refuse s status
        | none =>
          (s.setOverlay p key value lifetime bound, .answer .ok [flagByte (s.overlay? key).isSome])

/-- OVERLAY_CLEAR (R111). -/
def serveOverlayClear (s : State) (p : Port) (key : Nat) : State × Reply :=
  if !(s.session.get p).isOpen then refuse s .noSession
  else if s.rebuildRuns then refuse s .rebuilding
  else if (descriptor? key).isNone then refuse s .unknownKey
  else
    match s.overlay? key with
    | none => refuse s .notFound
    | some o =>
      if o.ownerPort ≠ p ∧ s.holdsClass p 7 = false then refuse s .owned
      else (s.removeOverlays (·.key = key) .overlayClear fun _ => p, .answer .ok [])

/-- OVERLAY_LIST (R112, R182). The record count is carried in one byte (DESIGN CHOICE, log entry 20). -/
def serveOverlayList (s : State) (p : Port) (index : Nat) : State × Reply :=
  if !(s.session.get p).isOpen then refuse s .noSession
  else
    match s.overlays[index]? with
    | none => refuse s .range
    | some o => (s, .answer .ok (byteOf s.overlays.length :: o.bytes))

/-- The overlays whose expiry is due are removed as one update, with their reports (R113). -/
def State.expireOverlays (s : State) : State :=
  s.removeOverlays (·.due) .overlayExpired (·.ownerPort)

/-- One tick at an overlay record: the count falls by one; a count that reaches 0 makes the expiry due
(R113). -/
def OverlayRecord.tick (o : OverlayRecord) : OverlayRecord :=
  match o.remaining with
  | none => o
  | some n => if n ≤ 1 then { o with due := true } else { o with remaining := some (n - 1) }

/-- One tick at the acknowledgement timer (R175). -/
def AckTimer.tick : AckTimer → AckTimer
  | .running left => .running (left - 1)
  | other => other

/-- One tick of the Timebase counted at the Overlay Timer and at the link's timer (R113, R175). -/
def State.countTick (s : State) : State :=
  { s with
    overlays := s.overlays.map OverlayRecord.tick
    link := { s.link with timer := s.link.timer.tick } }

end Sys2Proof.Machine
end

