-- ==== Sys2Proof/Machine/Handler.lean ====
section
/-! DEFINITION. The Request Handler: delivery of a record with the common refusals (R144, R147), the handing
over of an answer (R145, R146, R162, R172) and a port soft reset (R146). -/

namespace Sys2Proof.Machine

/-- The common refusal tests, in order (R147). -/
def commonRefusal (s : State) (p : Port) (r : Record) : Option Status :=
  if s.isDisabled p then some .disabled
  else if s.replay = .startup then some .starting
  else if r.request?.isNone then some .badRequest
  else none

/-- A record delivered to an idle handler: steps 1 and 2 of R144. Port 2's handler alone keeps a last tag and
drops a stored response (R143). -/
def State.deliver (s : State) (p : Port) (r : Record) : State :=
  let h := s.handler.get p
  s.setHandler p
    { state := .executing, current := some r, abandoned := false, stored := none
      lastTag := if p = .port2 then r.tag else h.lastTag
      service := match commonRefusal s p r with
        | some status => .answered ⟨status, r.tag, []⟩
        | none => .waiting }

/-- The request's service has ended: the handler is IDLE with no current request (R145, R146). DESIGN CHOICE (log
entry 21): abandoned goes back to no here; the spec gives it no value from the end of an abandoned request's service
until the next delivery sets it (R144, step 1), and nothing reads it while the handler is IDLE. -/
def Handler.finished (h : Handler) (stored : Option Response) : Handler :=
  { h with state := .idle, current := none, abandoned := false, stored := stored, service := .waiting }

/-- The response record fills the response area from 50h; the bytes after it become 00h (R162). -/
def responseFill (r : Response) : Bytes :=
  (r.bytes ++ List.replicate Config.areaBytes 0).take Config.areaBytes

/-- The window takes the answer of a request not abandoned (R161, R162). -/
def Window.takeAnswer (x : Window) (r : Response) : Window :=
  { x with
    responseArea := responseFill r
    state := if x.state = .submitted then .answered else x.state }

/-- The window at the end of an abandoned request's service (R161, R164). -/
def Window.endAbandoned (x : Window) : Window :=
  { x with state := if x.state = .submitted then .idle else x.state }

/-- The link takes the answer of a request not abandoned: the stored response is pending, a BUSY pending at
that moment is withdrawn (R172). In OFF nothing is pending (R179). -/
def Link.takeAnswer (l : Link) : Link :=
  if l.state = .off then l else { l with pending := some .response }

/-- The answer is ready: it is discarded where the request was abandoned, and otherwise stored on port 2 and
handed to the port's transport (R145, R146, R162, R172). -/
def State.handOver (s : State) (p : Port) (r : Response) : State :=
  let h := s.handler.get p
  match windowOf p with
  | some w =>
    let s' := s.setHandler p (h.finished none)
    if h.abandoned then s'.setWindow w (s.window.get w).endAbandoned
    else s'.setWindow w ((s.window.get w).takeAnswer r)
  | none =>
    if h.abandoned then s.setHandler p (h.finished none)
    else (s.setHandler p (h.finished (some r))).setLink s.link.takeAnswer

/-- A port soft reset or a link loss at the handler (R146). -/
def State.softReset (s : State) (p : Port) : State :=
  let h := s.handler.get p
  s.setHandler p
    (match h.state with
      | .idle => { h with stored := none }
      | .executing => { h with abandoned := true, stored := none })

/-- The handler holds exactly this record, delivered and not yet carried to the block that owns its state. -/
def State.awaits (s : State) (p : Port) (r : Record) : Bool :=
  let h := s.handler.get p
  h.state = .executing && h.current = some r && h.service = .waiting

end Sys2Proof.Machine
end

