-- ==== Sys2Proof/Machine/Window.lean ====
section
/-! DEFINITION. The window ports: strap values (R157), the window's fields under reads and writes (R158 to
R160), the control codes (R161 to R164), and the meanings of the window commands. -/

namespace Sys2Proof.Machine

/-! ### Straps -/

/-- The transport a strap value selects, with the I2C target address (R157). -/
inductive Transport where
  | spi
  | i2c (address : Nat)
deriving DecidableEq, Repr

def strapTransport : StrapPin → Transport
  | .vss => .spi
  | .vdd => .i2c 0x38
  | .pulledDown => .i2c 0x39
  | .pulledUp => .i2c 0x3A
  | .floating => .i2c 0x3B

/-! ### Reading -/

/-- What a read of a window offset returns (R160, Table 9-1). -/
def Window.readByte (x : Window) (offset : Nat) : Byte :=
  if offset = 0x00 then x.state.code
  else if offset = 0x02 then x.attnEnable
  else if offset = 0x03 then byteOf x.overrun
  else if 0x10 ≤ offset ∧ offset ≤ 0x4F then x.requestArea.getD (offset - 0x10) 0
  else if 0x50 ≤ offset ∧ offset ≤ 0x8F then x.responseArea.getD (offset - 0x50) 0
  else 0

/-! ### Control codes -/

/-- One more ignored write (R163). -/
def Window.countOverrun (x : Window) : Window := { x with overrun := countUp 255 x.overrun }

/-- The request record standing in the request area: as many argument bytes as argLength states, up to the
60 the area holds (R162). -/
def Window.record (x : Window) : Record :=
  let argLength := (x.requestArea.getD 2 0).toNat
  { kind := x.requestArea.getD 0 0, tag := x.requestArea.getD 1 0, argLength := argLength
    args := (x.requestArea.drop 3).take (min argLength Config.maxArgs) }

/-- GO (R161, R162): ANSWERED begins with TAKE; SUBMITTED, and an EXECUTING handler, ignore it. -/
def State.windowGo (s : State) (w : WindowPort) : State :=
  let x := s.window.get w
  if x.state = .submitted ∨ (s.handler.get w.port).state = .executing then
    s.setWindow w x.countOverrun
  else
    let delivered := s.deliver w.port x.record
    match x.state with
    | .idle => delivered.setWindow w { x with state := .submitted }
    | .answered => delivered.setWindow w { x with overrun := 0, state := .submitted }
    | _ => delivered

/-- TAKE (R161). -/
def Window.take (x : Window) : Window :=
  match x.state with
  | .submitted => x.countOverrun
  | .answered => { x with overrun := 0, state := .idle }
  | _ => { x with overrun := 0 }

/-- The window's own part of PORT_RESET (R164, steps 1 and 4). -/
def Window.portReset (x : Window) : Window :=
  { x with
    overrun := 0, attnEnable := 1
    state := if x.state = .answered then .idle else x.state }

/-- PORT_RESET (R164): the window, then the session end, then the handler. -/
def State.windowReset (s : State) (w : WindowPort) : State :=
  ((s.setWindow w (s.window.get w).portReset).endSession w.port).softReset w.port

/-- A byte written to PORT_CONTROL (R160, R161, R163). -/
def State.controlCode (s : State) (w : WindowPort) (code : Byte) : State :=
  if code = 0xA1 then s.windowGo w
  else if code = 0xA2 then s.setWindow w (s.window.get w).take
  else if code = 0xA7 then s.windowReset w
  else s.setWindow w (s.window.get w).countOverrun

/-- A byte written to the request area: ignored and counted in SUBMITTED (R161, R163). -/
def Window.writeRequest (x : Window) (offset : Nat) (data : Byte) : Window :=
  if x.state = .submitted then x.countOverrun
  else { x with requestArea := x.requestArea.set (offset - 0x10) data }

/-! ### Transactions -/

/-- The port is within an SPI read transaction, in which MOSI is ignored (R159). -/
def Window.inSpiRead (x : Window) : Bool :=
  strapTransport x.strap = .spi && x.spi = .reading

/-- What the port drives on MISO: while CS is high the port releases it (R159). On I2C there is no MISO. -/
def Window.miso (x : Window) : Option Byte := if x.spi = .deselected then none else x.busOut

/-- CS rises, which ends the master's SPI transaction and releases MISO (R159). On I2C none is open. -/
def Window.deselect (x : Window) : Window := { x with spi := .deselected }

/-- A byte of an SPI transaction is over: CS rises after it, or stays low, as the outside has it (R159, log
entry 8). -/
def Window.endByte (x : Window) : Window :=
  match x.spi, x.csRises with
  | .deselected, _ => x
  | _, [] => x
  | _, true :: rest => { x.deselect with csRises := rest }
  | _, false :: rest => { x with csRises := rest }

/-- The I2C offset byte sets the pointer to its value (R158). The SPI command byte begins a transaction: its most
significant bit makes it a read or a write, its low seven bits set the pointer, and MISO carries 00h
(R159). -/
def Window.setPointer (x : Window) (byte : Byte) : Window :=
  match strapTransport x.strap with
  | .spi =>
    Window.endByte
      { x with
        pointer := byte &&& 0x7F, busOut := some 0
        spi := if byte.getLsbD 7 then .reading else .writing }
  | .i2c _ => { x with pointer := byte }

/-- A data byte read at the pointer, which then rises (R158). -/
def Window.readAtPointer (x : Window) : Window :=
  Window.endByte { x with busOut := some (x.readByte x.pointer.toNat), pointer := x.pointer + 1 }

/-- A data byte clocked out: on I2C and in an SPI read the byte at the pointer, in an SPI write 00h; with CS high
nothing is clocked (R158, R159). -/
def Window.clockOut (x : Window) : Window :=
  match strapTransport x.strap, x.spi with
  | .spi, .deselected => x
  | .spi, .writing => { x with busOut := some 0 }
  | _, _ => x.readAtPointer

/-- Within an SPI write the bytes land at the pointer: a byte for another offset comes in a write transaction of its
own, before which CS has risen (R159, log entry 8). -/
def Window.beforeWrite (x : Window) (offset : Byte) : Window :=
  if x.spi = .writing ∧ x.pointer ≠ offset then x.deselect else x

/-- After a data byte is written the pointer stands one above it, from FFh to 00h in turn (R158); on SPI MISO carried
00h during it (R159), on I2C a write drives nothing. -/
def Window.afterWrite (x : Window) (offset : Byte) : Window :=
  Window.endByte
    { x with
      pointer := offset + 1
      busOut := if strapTransport x.strap = .spi then some 0 else x.busOut }

/-- A data byte taken into the window at an offset (R158 to R161). -/
def State.landByte (s : State) (w : WindowPort) (offset data : Byte) : State :=
  let written :=
    if offset = 0x01 then s.controlCode w data
    else if offset = 0x02 then s.setWindow w { s.window.get w with attnEnable := data &&& 0x03 }
    else if 0x10 ≤ offset.toNat ∧ offset.toNat ≤ 0x4F then
      s.setWindow w ((s.window.get w).writeRequest offset.toNat data)
    else s
  written.setWindow w ((written.window.get w).afterWrite offset)

/-- A byte the master sends for a window offset: in an SPI read the port ignores it and drives the byte at the
pointer (R159); else it is written there (log entry 8). -/
def State.windowWrite (s : State) (w : WindowPort) (offset data : Byte) : State :=
  let x := s.window.get w
  if x.inSpiRead then s.setWindow w x.readAtPointer
  else (s.setWindow w (x.beforeWrite offset)).landByte w offset data

/-- Bytes written one after another from an offset, within one write transaction (R158, R160). -/
def State.landBytes (s : State) (w : WindowPort) (offset : Byte) : Bytes → State
  | [] => s
  | b :: rest => (s.landByte w offset b).landBytes w (offset + 1) rest

/-- A master's submission of a record, in write transactions of its own: its bytes from 10h, then GO (section
9.1, R162). -/
def State.submitToWindow (s : State) (w : WindowPort) (r : Record) : State :=
  ((s.setWindow w (s.window.get w).deselect).landBytes w 0x10 r.bytes).landByte w 0x01 0xA1

/-! ### Commands -/

/-- GO: the code A1h written to PORT_CONTROL (R161, R162). -/
def execGo (w : WindowPort) (s : State) : Host.Outcome State Fault Refusal :=
  .next (s.running fun s => (s.windowWrite w 0x01 0xA1).settle)

/-- TAKE: the code A2h written to PORT_CONTROL (R161). -/
def execTake (w : WindowPort) (s : State) : Host.Outcome State Fault Refusal :=
  .next (s.running fun s => (s.windowWrite w 0x01 0xA2).settle)

/-- PORT_RESET: the code A7h written to PORT_CONTROL (R164). -/
def execPortReset (w : WindowPort) (s : State) : Host.Outcome State Fault Refusal :=
  .next (s.running fun s => (s.windowWrite w 0x01 0xA7).settle)

/-- Any other byte written to PORT_CONTROL (R163). -/
def execUnknownControlCode (w : WindowPort) (code : Byte) (s : State) :
    Host.Outcome State Fault Refusal :=
  .next (s.running fun s => (s.windowWrite w 0x01 code).settle)

/-- A byte written to the request area (R160, R161, R163). -/
def execRequestAreaWrite (w : WindowPort) (offset data : Byte) (s : State) :
    Host.Outcome State Fault Refusal :=
  .next (s.running fun s => (s.windowWrite w offset data).settle)

/-- A byte written to ATTN_ENABLE (R160, R165). -/
def execAttnEnableWrite (w : WindowPort) (data : Byte) (s : State) :
    Host.Outcome State Fault Refusal :=
  .next (s.running fun s => (s.windowWrite w 0x02 data).settle)

/-- A byte written to a read-only or unlisted offset (R160). -/
def execWindowWriteIgnored (w : WindowPort) (offset data : Byte) (s : State) :
    Host.Outcome State Fault Refusal :=
  .next (s.running fun s => (s.windowWrite w offset data).settle)

/-- The I2C offset byte or the SPI command byte (R158, R159). -/
def execWindowPointerSet (w : WindowPort) (byte : Byte) (s : State) :
    Host.Outcome State Fault Refusal :=
  .next (s.running fun s => (s.setWindow w ((s.window.get w).setPointer byte)).settle)

/-- A data byte read from the window (R158 to R160). -/
def execWindowByteRead (w : WindowPort) (s : State) : Host.Outcome State Fault Refusal :=
  .next (s.running fun s => (s.setWindow w (s.window.get w).clockOut).settle)

end Sys2Proof.Machine
end

