-- ==== Sys2Proof/Machine/Writer.lean ====
section
/-! DEFINITION. The Journal Writer (R61): the burning of one byte (R27, R28), the precheck (R62), the steps BODY,
ENTRY, VERIFY, SEAL, APPLY and VOIDING of a commit (R64 to R71), the service of a revoke (R97, R98) and the
end of a job (R72, R99). Each function takes the writer on until it waits for a pulse or for the VERIFY
readback, or to the end of the job; asked to pause, it stops before that at the next moment at which the manual
lets another event fall (log entry 6). -/

namespace Sys2Proof.Machine

/-! ### Burning bytes -/

/-- The cell reads a 1 where the target has a 0 (R27). -/
def hasStray (reads target : Byte) : Bool := reads &&& ~~~target ≠ 0

/-- How a run of bytes stands before the next pulse. -/
inductive BurnRun where
  /-- Every byte reads its target. -/
  | finished
  /-- The first byte that does not read its target holds a bit no burn can clear. -/
  | failed
  /-- The first of these bytes needs a pulse, and has taken `taken` so far. -/
  | pulses (todo : List (Nat × Byte)) (taken : Nat)
deriving DecidableEq, Repr

/-- Steps 1 and 2 of R27 over bytes to burn in order: a byte that already reads its target takes no pulse, a
byte with a stray bit fails at once. -/
def runBytes (m : Memory) : List (Nat × Byte) → BurnRun
  | [] => .finished
  | (offset, target) :: rest =>
    if m.read offset = target then runBytes m rest
    else if hasStray (m.read offset) target then .failed
    else .pulses ((offset, target) :: rest) 0

/-- One pulse at a cell: it acts only while BURN_EN is high, and the cell takes the bits `taken` from it,
which for a sound cell are the target's bits or some of them (R27, R28). -/
def State.pulseCell (s : State) (offset : Nat) (taken : Byte) : State :=
  if s.burnEn then { s with array := s.array.setBits offset taken } else s

/-- What the readback after a pulse decides: steps 3 to 5 of R27, `taken` counting the pulse. -/
def afterPulse (m : Memory) (taken : Nat) : List (Nat × Byte) → BurnRun
  | [] => .finished
  | (offset, target) :: rest =>
    if m.read offset = target then runBytes m rest
    else if hasStray (m.read offset) target then .failed
    else if Config.maxPulses ≤ taken then .failed
    else .pulses ((offset, target) :: rest) taken

/-- The writer in a burning step, its bytes still to burn and the pulses the first has taken. -/
def State.burning (s : State) (step : WriterState) (a : ActiveJob) (todo : List (Nat × Byte))
    (pulses : Nat) : State :=
  { s with writer := step, active := some { a with todo := todo, pulses := pulses, moment := .none } }

/-- The writer held at a moment between two of its effects, with no byte under burn (log entry 6). -/
def State.holdAt (s : State) (step : WriterState) (a : ActiveJob) (moment : Moment) : State :=
  { s with writer := step, active := some { a with todo := [], pulses := 0, moment := moment } }

/-! ### The end of a job -/

/-- The writer returns to IDLE; the arbiter's next grant follows (R72, R99). -/
def State.releaseWriter (s : State) : State := { s with writer := .idle, active := none }

/-- The end of a commit job (R72): notice, Last Commit record, Staging List, journal state, writer. -/
def State.endCommit (s : State) (j : Job) (result : Result) (seq failIndex : Option Nat) : State :=
  let noticed := if j.notice then s.post j.port (.commitDone result seq) else s
  let recorded :=
    noticed.setSession j.port
      { noticed.session.get j.port with lastCommit := ⟨result, seq, failIndex, j.generation⟩ }
  let l := recorded.staging.get j.port
  let listed :=
    recorded.setStaging j.port
      (if result = .done ∨ j.notice = false then ⟨.empty, []⟩ else { l with state := .building })
  ({ listed with journal := journalAfterJob listed }).releaseWriter

/-- The end of a revoke job (R99): lastRevoke and notice while its session is open, journal state, writer. -/
def State.endRevoke (s : State) (j : Job) (result : Result) (target : Nat) : State :=
  let told :=
    if j.notice then
      (s.setSession j.port
        { s.session.get j.port with lastRevoke := result, lastRevokeSeq := some target }).post j.port
        (.revokeDone result target)
    else s
  ({ told with journal := journalAfterJob told }).releaseWriter

/-! ### The Entry Index under the writer -/

/-- The state of one index record changed. -/
def State.setEntryState (s : State) (seq : Nat) (state : EntryState) : State :=
  { s with index := s.index.map fun r => if r.seq = seq then { r with state := state } else r }

/-- One index record marked applied (R39). -/
def State.markApplied (s : State) (seq : Nat) : State :=
  { s with index := s.index.map fun r => if r.seq = seq then { r with applied := true } else r }

/-- A job just granted, nothing planned for it yet (R61). -/
def ActiveJob.granted (j : Job) : ActiveJob :=
  { job := j, slot := 0, bodyOffset := 0, bodyLength := 0, count := 0, crc := 0, todo := [], pulses := 0
    moment := .granted }

/-- The sequence number of the job's slot (R33). -/
def ActiveJob.seq (a : ActiveJob) : Nat := a.slot + 1

/-- The slot is begun: slots used rises by one and the index gains its TORN record (R31, R38, R65, R69). -/
def State.beginSlot (s : State) (a : ActiveJob) : State :=
  { s with
    slotsUsed := s.slotsUsed + 1
    index := s.index ++
      [{ seq := a.seq, state := .torn, origin := a.job.port.number, bodyOffset := a.bodyOffset,
         bodyLength := a.bodyLength, count := a.count, applied := false }] }

/-! ### The steps of a commit, last first -/

/-- VOIDING (R69 to R71): on success the record becomes VOID; on a failed byte it stays TORN and the journal
moves to FAULTED. Either way the job ends BURN_FAULT. -/
def State.stepVoid (s : State) (a : ActiveJob) (r : BurnRun) : State :=
  match r with
  | .pulses todo taken => s.burning .voiding a todo taken
  | .finished => (s.setEntryState a.seq .void).endCommit a.job .burnFault (some a.seq) none
  | .failed => ({ s with journal := .faulted }).endCommit a.job .burnFault (some a.seq) none

/-- The void of a slot already begun: kind FFh, then seal A5h (R70). -/
def State.voidSlot (s : State) (a : ActiveJob) : State :=
  s.stepVoid a (runBytes s.array [(slotOffset a.slot + 1, 0xFF), (slotOffset a.slot + 14, 0xA5)])

/-- The void of a job whose body failed: the slot is begun and burned whole (R69). -/
def State.voidFromBody (s : State) (a : ActiveJob) : State :=
  let begun := s.beginSlot a
  let bytes := entryBytes 0xFF a.seq a.job.port.number a.count a.bodyOffset a.bodyLength 0 ++ [0xA5]
  begun.stepVoid a (runBytes begun.array (burnsAt (slotOffset a.slot) bytes))

/-- The end of a patch that was applied: the job ends DONE (R68, R72). -/
def State.finishCommit (s : State) (a : ActiveJob) : State := s.endCommit a.job .done (some a.seq) none

/-- APPLY (R68): the actions of the port's list applied as one update with the applied flag, their reports
sent, and the job ended, before which another event may fall (R130). -/
def State.applyPatch (s : State) (a : ActiveJob) (pause : Bool) : State :=
  let actions := (s.staging.get a.job.port).actions
  let applied := (s.applyActions a.seq actions).markApplied a.seq
  let told := applied.sendReports (applyReports s applied actions a.job.port a.seq)
  if pause then told.holdAt .apply a .applied else told.finishCommit a

/-- SEAL (R67): a verified seal makes the record SEALED, and APPLY follows, before which another event may
fall (R39, R41). -/
def State.stepSeal (s : State) (a : ActiveJob) (r : BurnRun) (pause : Bool) : State :=
  match r with
  | .pulses todo taken => s.burning .seal a todo taken
  | .finished =>
    let done := s.setEntryState a.seq .sealed
    if pause then done.holdAt .apply a .sealed else done.applyPatch a false
  | .failed => s.voidSlot a

/-- VERIFY (R66): the code of the body read back decides between SEAL and VOIDING. -/
def State.stepVerify (s : State) (a : ActiveJob) (pause : Bool) : State :=
  if crc32 (s.array.readRange a.bodyOffset a.bodyLength) = a.crc then
    s.stepSeal a (runBytes s.array [(slotOffset a.slot + 14, 0xA5)]) pause
  else s.voidSlot a

/-- ENTRY (R65): VERIFY follows the last byte. -/
def State.stepEntry (s : State) (a : ActiveJob) (r : BurnRun) : State :=
  match r with
  | .pulses todo taken => s.burning .entry a todo taken
  | .finished => s.burning .verify a [] 0
  | .failed => s.voidSlot a

/-- The slot begun and its bytes 0 to 13 to burn (R65). -/
def State.beginEntry (s : State) (a : ActiveJob) : State :=
  let begun := s.beginSlot a
  let bytes := entryBytes 0x3C a.seq a.job.port.number a.count a.bodyOffset a.bodyLength a.crc
  begun.stepEntry a (runBytes begun.array (burnsAt (slotOffset a.slot) bytes))

/-- At the end of the BODY step, whatever its outcome, body top moves past the planned range (R30, R64). -/
def State.endBody (s : State) (a : ActiveJob) : State :=
  { s with bodyTop := a.bodyOffset + a.bodyLength }

/-- What follows the end of BODY: the slot begun for the entry, or for its void where a byte failed (R64, R65,
R69). -/
def State.leaveBody (s : State) (a : ActiveJob) (whole : Bool) : State :=
  if whole then s.beginEntry a else s.voidFromBody a

/-- The end of BODY: body top moves, and the slot is begun, before which another event may fall (R156). -/
def State.finishBody (s : State) (a : ActiveJob) (whole pause : Bool) : State :=
  let ended := s.endBody a
  if pause then ended.holdAt .body a (.bodyEnded whole) else ended.leaveBody a whole

/-- BODY (R64). -/
def State.stepBody (s : State) (a : ActiveJob) (r : BurnRun) (pause : Bool) : State :=
  match r with
  | .pulses todo taken => s.burning .body a todo taken
  | .finished => s.finishBody a true pause
  | .failed => s.finishBody a false pause

/-! ### PRECHECK -/

/-- A guard holds (R49, R18). -/
def guardHolds (s : State) (a : Action) : Bool :=
  match a.guard, s.keyRecord? a.key with
  | .none, _ => true
  | .equals v, some r => r.journalValue = v
  | .untouched, some r => r.provenance = 0
  | _, none => false

/-- The job's port holds the class of the action's key (test 3 of R62). -/
def State.grantsAction (s : State) (p : Port) (a : Action) : Bool :=
  match descriptor? a.key with
  | some d => s.holdsClass p d.keyClass
  | none => false

/-- The action is on a class 7 key (R10). -/
def Action.onClassSeven (a : Action) : Bool :=
  match descriptor? a.key with
  | some d => d.keyClass = 7
  | none => false

/-- The space test (test 6 of R62, R10, R104). -/
def State.entryFits (s : State) (actions : List Action) : Bool :=
  let needs := encodedLength actions + Config.slotBytes
  s.slotsUsed < Config.maxSlots &&
    if actions.all Action.onClassSeven then needs ≤ s.freeSpace
    else needs + s.activeNumber keyCommitReserve ≤ s.freeSpace

/-- The blank test (test 7 of R62). -/
def State.planIsBlank (s : State) (actions : List Action) : Bool :=
  s.array.isBlank s.bodyTop (encodedLength actions) &&
    s.array.isBlank (slotOffset s.slotsUsed) Config.slotBytes

/-- The first test of the precheck that fails, with the index a failed guard gives (R62). -/
def precheck (s : State) (p : Port) (actions : List Action) : Option (Result × Option Nat) :=
  if s.journal = .faulted then some (.journalFaulted, none)
  else if !s.burnEn then some (.locked, none)
  else if !actions.all (s.grantsAction p) then some (.denied, none)
  else if actions.any (s.isPinned ·.key) then some (.pinned, none)
  else
    match actions.findIdx? (fun a => !guardHolds s a) with
    | some i => some (.guardFailed, some i)
    | none =>
      if !s.entryFits actions then some (.noSpace, none)
      else if !s.planIsBlank actions then some (.notBlank, none)
      else none

/-- The plan of a commit that passed its precheck (R62, R64). -/
def State.commitPlan (s : State) (j : Job) (actions : List Action) : ActiveJob :=
  { job := j, slot := s.slotsUsed, bodyOffset := s.bodyTop, bodyLength := encodedLength actions
    count := actions.length, crc := crc32 (bodyBytes actions)
    todo := burnsAt s.bodyTop (bodyBytes actions), pulses := 0, moment := .none }

/-- The precheck of the commit the writer holds: BODY begun or the job ended (R61 to R64). NOT_BLANK moves an OPEN
journal to FAULTED (R43). -/
def State.testCommit (s : State) (j : Job) : State :=
  let actions := (s.staging.get j.port).actions
  match precheck s j.port actions with
  | some (.notBlank, failIndex) => ({ s with journal := .faulted }).endCommit j .notBlank none failIndex
  | some (result, failIndex) => s.endCommit j result none failIndex
  | none =>
    let a := s.commitPlan j actions
    s.stepBody a (runBytes s.array a.todo) s.pauses

/-! ### Revokes -/

/-- The tests of REVOKING (R97). -/
def revokeRefusal (s : State) (p : Port) (target : Nat) : Option Result :=
  match s.entry? target with
  | none => some .notRevocable
  | some e =>
    if e.state ≠ .sealed then some .notRevocable
    else if e.origin ≠ p.number ∧ s.holdsClass p 7 = false then some .denied
    else if !s.burnEn then some .locked
    else none

/-- The revoke burn (R98): the last readback decides, any nonzero byte making the entry revoked. -/
def State.stepRevoke (s : State) (a : ActiveJob) (r : BurnRun) : State :=
  match r with
  | .pulses todo taken => s.burning .revoking a todo taken
  | _ =>
    if s.array.read (slotOffset a.slot + 15) = 0 then
      ({ s with journal := .faulted }).endRevoke a.job .revokeFault a.seq
    else (s.setEntryState a.seq .revoked).endRevoke a.job .done a.seq

/-- The tests of the revoke the writer holds: the burn begun or the job ended (R97, R98). -/
def State.testRevoke (s : State) (j : Job) (target : Nat) : State :=
  match revokeRefusal s j.port target with
  | some result => s.endRevoke j result target
  | none =>
    let a := { ActiveJob.granted j with slot := target - 1, moment := .none }
    s.stepRevoke a (runBytes s.array [(slotOffset a.slot + 15, 0xFF)])

/-! ### The grant of a job -/

/-- The writer holds a job at its grant, no test of it made: a COMMIT in PRECHECK with its list BURNING, a REVOKE in
REVOKING (R61, R97). -/
def State.grantJob (s : State) (j : Job) : State :=
  match j.kind with
  | .commit =>
    (s.setStaging j.port { s.staging.get j.port with state := .burning }).holdAt .precheck
      (ActiveJob.granted j) .granted
  | .revoke _ => s.holdAt .revoking (ActiveJob.granted j) .granted

/-- The first tests of the job the writer holds, and what follows of them (R62, R97). -/
def State.testJob (s : State) (j : Job) : State :=
  match j.kind with
  | .commit => s.testCommit j
  | .revoke target => s.testRevoke j target

/-- The writer takes a job at its grant (R61) and tests it, before which another event may fall (R59, R76). -/
def State.startJob (s : State) (j : Job) : State :=
  let granted := s.grantJob j
  if s.pauses then granted else granted.testJob j

/-! ### Progress -/

/-- A pulse and its readback at the byte under burn, and what follows of the job (R27, R64 to R70, R98). The
arbiter's next grant is not part of it. -/
def State.pulse (s : State) (a : ActiveJob) (taken : Byte) (pause : Bool) : State :=
  match a.todo with
  | [] => s
  | (offset, _) :: _ =>
    let pulsed := s.pulseCell offset taken
    let r := afterPulse pulsed.array (a.pulses + 1) a.todo
    match s.writer with
    | .body => pulsed.stepBody a r pause
    | .entry => pulsed.stepEntry a r
    | .seal => pulsed.stepSeal a r pause
    | .voiding => pulsed.stepVoid a r
    | .revoking => pulsed.stepRevoke a r
    | _ => s

/-- The writer takes its job on: from the moment it is held at, without a pulse, or by the pulse it waits for. -/
def State.burnPulse (s : State) (taken : Byte) (pause : Bool) : State :=
  match s.active with
  | none => s
  | some a =>
    match a.moment with
    | .granted => s.testJob a.job
    | .bodyEnded whole => s.leaveBody a whole
    | .sealed => s.applyPatch a pause
    | .applied => s.finishCommit a
    | .none => s.pulse a taken pause

end Sys2Proof.Machine
end

