-- ==== Sys2Proof/Machine/Replay.lean ====
section
/-! DEFINITION. The Replay Engine: the scan of the directory (R80), the classification of entries (R81, R82),
their application to the working result (R83, R84), HIGHWATER (R85), and the two installs (R87, R91, R92). -/

namespace Sys2Proof.Machine

/-! ### The directory -/

/-- A directory slot's fields as its bytes read (R33, R181). -/
structure SlotFields where
  marker : Byte
  kind : Byte
  seq : Nat
  origin : Nat
  count : Nat
  bodyOffset : Nat
  bodyLength : Nat
  crc : Bytes
  sealByte : Byte
  revokeByte : Byte
deriving DecidableEq, Repr

/-- The fields of slot `n` (R181). -/
def readSlot (m : Memory) (n : Nat) : SlotFields :=
  let at' (i : Nat) : Byte := m.read (slotOffset n + i)
  { marker := at' 0, kind := at' 1, seq := number16 (at' 2) (at' 3), origin := (at' 4).toNat
    count := (at' 5).toNat, bodyOffset := number16 (at' 6) (at' 7)
    bodyLength := number16 (at' 8) (at' 9), crc := m.readRange (slotOffset n + 10) 4
    sealByte := at' 14, revokeByte := at' 15 }

/-- Slot `n` is well formed: marker D5h, kind 3Ch or FFh, seq its number plus 1 (R80). -/
def SlotFields.wellFormed (f : SlotFields) (n : Nat) : Bool :=
  f.marker = 0xD5 && (f.kind = 0x3C || f.kind = 0xFF) && f.seq = n + 1

/-- Where the directory ends, from slot `n` upward over at most `fuel` slots: how many slots count as used,
and whether the last of them is the malformed end slot (R80). -/
def directoryEnd (m : Memory) (n : Nat) : Nat → Nat × Bool
  | 0 => (n, false)
  | fuel + 1 =>
    let f := readSlot m n
    if f.marker = 0 then (n, false)
    else if f.wellFormed n then directoryEnd m (n + 1) fuel
    else (n + 1, true)

/-! ### Bodies -/

/-- An action record as a body's bytes carry it (R181). -/
structure RawAction where
  op : Nat
  pin : Bool
  key : Nat
  value : Bytes
deriving DecidableEq, Repr

/-- The `count` action records that the bytes hold, filling them exactly (check 3 of R82). -/
def readActions : Nat → Bytes → Option (List RawAction)
  | 0, [] => some []
  | 0, _ => none
  | count + 1, op :: high :: low :: length :: rest =>
    if rest.length < length.toNat then none
    else
      match readActions count (rest.drop length.toNat) with
      | none => none
      | some actions =>
        some
          ({ op := op.toNat % 0x80, pin := op.getLsbD 7, key := number16 high low
             value := rest.take length.toNat } :: actions)
  | _, _ => none

/-- Checks 4 and 6 of R82 at one action: a known op, no value for RETIRE and KEEP, an ASSIGN value of the
key's form and range; and check 5's catalog key. -/
def RawAction.action? (a : RawAction) : Option Action :=
  match descriptor? a.key with
  | none => none
  | some d =>
    if a.op = 1 then
      if d.hasForm a.value && d.inRange a.value then some ⟨a.key, .assign a.value, a.pin, .none⟩ else none
    else if a.op = 2 ∧ a.value = [] then some ⟨a.key, .retire, a.pin, .none⟩
    else if a.op = 3 ∧ a.value = [] then some ⟨a.key, .keep, a.pin, .none⟩
    else none

/-- No two actions name one key (check 5 of R82). -/
def distinctKeys (actions : List Action) : Bool := (actions.map Action.key).Nodup

/-- The actions of a body, where it passes checks 3 to 6 of R82. -/
def readBody (slotCount : Nat) (body : Bytes) : Option (List Action) :=
  match body with
  | [] => none
  | count :: rest =>
    if 1 ≤ slotCount ∧ slotCount ≤ Config.maxActions ∧ count.toNat = slotCount then
      match readActions slotCount rest with
      | none => none
      | some raw =>
        match raw.mapM RawAction.action? with
        | none => none
        | some actions => if distinctKeys actions then some actions else none
    else none

/-! ### The working result -/

/-- A key of the working result is pinned (check 7 of R82). -/
def pinnedInWork (keys : List WorkingKey) (key : Nat) : Bool :=
  keys.any fun k => k.key = key && k.pinned

/-- The actions of an entry that passes every check of R82, in body order. -/
def soundActions (m : Memory) (bottom : Nat) (keys : List WorkingKey) (f : SlotFields) :
    Option (List Action) :=
  if f.bodyOffset + f.bodyLength ≤ bottom ∧ 5 ≤ f.bodyLength ∧ f.bodyLength ≤ Config.maxBody then
    let body := m.readRange f.bodyOffset f.bodyLength
    if bytesOfNat 4 (crc32 body).toNat = f.crc then
      match readBody f.count body with
      | none => none
      | some actions => if actions.any (pinnedInWork keys ·.key) then none else some actions
    else none
  else none

/-- One action of entry `seq` at a key of the working result (R83). -/
def WorkingKey.applyAction (k : WorkingKey) (seq : Nat) (a : Action) : WorkingKey :=
  let valued :=
    match a.op with
    | .assign v => { k with value := v, provenance := seq }
    | .retire =>
      match descriptor? a.key with
      | some d => { k with value := d.default, provenance := seq }
      | none => k
    | .keep => k
  if a.pin then { valued with pinned := true, pinSeq := some seq } else valued

/-- One action at the working result's keys (R83). -/
def applyToWork (seq : Nat) (keys : List WorkingKey) (a : Action) : List WorkingKey :=
  keys.map fun k => if k.key = a.key then k.applyAction seq a else k

/-- The class of a used slot that is not the malformed end slot, with the actions to apply (R81). -/
def classify (m : Memory) (bottom : Nat) (keys : List WorkingKey) (f : SlotFields) :
    EntryState × List Action :=
  if f.sealByte ≠ 0xA5 then (.torn, [])
  else if f.kind = 0xFF then (.void, [])
  else if f.revokeByte ≠ 0 then (.revoked, [])
  else
    match soundActions m bottom keys f with
    | none => (.corrupt, [])
    | some actions => (.sealed, actions)

/-- A slot of one class counted (R88). -/
def ReplayCounts.add (c : ReplayCounts) (state : EntryState) : ReplayCounts :=
  let c := { c with total := c.total + 1 }
  match state with
  | .sealed => { c with applied := c.applied + 1 }
  | .revoked => { c with revoked := c.revoked + 1 }
  | .void => { c with void := c.void + 1 }
  | .torn => { c with torn := c.torn + 1 }
  | .corrupt => { c with corrupt := c.corrupt + 1 }

/-- The record of a used slot: its class, its fields as read, its seq from its number (R84). -/
def SlotFields.record (f : SlotFields) (n : Nat) (state : EntryState) : IndexRecord :=
  { seq := n + 1, state := state, origin := f.origin, bodyOffset := f.bodyOffset
    bodyLength := f.bodyLength, count := f.count, applied := state = .sealed }

/-- One used slot taken into the working result: classified, applied where SEALED, recorded and counted
(R81 to R84, R88). `malformed` marks the malformed end slot. -/
def WorkingResult.takeSlot (m : Memory) (bottom : Nat) (work : WorkingResult) (n : Nat)
    (malformed : Bool) : WorkingResult :=
  let f := readSlot m n
  let c := if malformed then (.corrupt, []) else classify m bottom work.keys f
  { work with
    keys := c.2.foldl (applyToWork (n + 1)) work.keys
    index := work.index ++ [f.record n c.1]
    counts := work.counts.add c.1 }

/-- The SCAN step over `used` slots, the last one malformed where `malformed` says so (R80 to R84). -/
def scanSlots (m : Memory) (used : Nat) (malformed : Bool) (work : WorkingResult) : WorkingResult :=
  (List.range used).foldl
    (fun w n => w.takeSlot m (directoryBottomOf used) n (malformed && n + 1 = used)) work

/-- HIGHWATER over `used` slots: one past the highest non-blank byte below the directory bottom, or past the highest
recorded body range that lies wholly below it; 0 where there is neither (R85, R30). The bytes of a slot that ended
the directory under a blank marker lie below the directory bottom and count as R85 says, against what row 2 of R106
tells of such a slot: DESIGN CHOICE (log entry 17). -/
def highwater (m : Memory) (used : Nat) (index : List IndexRecord) : Nat :=
  let bottom := directoryBottomOf used
  let cells :=
    m.foldl (fun top c => if c.1 < bottom ∧ c.2 ≠ 0 then max top (c.1 + 1) else top) 0
  index.foldl
    (fun top r =>
      if 1 ≤ r.bodyLength ∧ r.bodyOffset + r.bodyLength ≤ bottom then max top (r.bodyOffset + r.bodyLength)
      else top)
    cells

/-- A run from its working result after DEFAULTS to the one it installs: SCAN, then HIGHWATER (R78, R79). -/
def replayRun (m : Memory) (defaults : WorkingResult) : WorkingResult :=
  let ended := directoryEnd m 0 Config.maxSlots
  let scanned := scanSlots m ended.1 ended.2 defaults
  { scanned with
    slotsUsed := ended.1
    bodyTop := highwater m ended.1 scanned.index }

/-! ### The installs -/

/-- The working key of a key id. -/
def WorkingResult.key? (work : WorkingResult) (key : Nat) : Option WorkingKey :=
  work.keys.find? (·.key = key)

/-- A key record under the start-up install (R24, R87). -/
def KeyRecord.startupInstall (r : KeyRecord) (k : WorkingKey) : KeyRecord :=
  { r with
    active := k.value, pending := none, pinned := k.pinned, pinSeq := k.pinSeq
    provenance := k.provenance }

/-- A key record under the rebuild install: a DEFERRED key keeps active and takes the derived value as
pending where it differs (R15, R24, R91). -/
def KeyRecord.rebuildInstall (r : KeyRecord) (k : WorkingKey) : KeyRecord :=
  let mode := match descriptor? r.key with
    | some d => d.applyMode
    | none => .live
  { r.setJournalValue mode k.value with
    pinned := k.pinned, pinSeq := k.pinSeq, provenance := k.provenance }

/-- Every key record under an install. -/
def installTable (install : KeyRecord → WorkingKey → KeyRecord) (work : WorkingResult)
    (table : List KeyRecord) : List KeyRecord :=
  table.map fun r =>
    match work.key? r.key with
    | some k => install r k
    | none => r

/-- What both installs share: index, space figures, counts, journal state, engine IDLE (R87, R91). The journal
is FULL by the space rule alone, as R43, R86, R87 and row 4 of R106 have it: row 3 of R106 tells what slots
standing above a malformed slot bring about (DEDUCED, log entry 17). -/
def State.installJournal (s : State) (work : WorkingResult) : State :=
  { s with
    index := work.index, slotsUsed := work.slotsUsed, bodyTop := work.bodyTop, counts := work.counts
    journal := installedJournal work.bodyTop work.slotsUsed
    replay := .idle, requester := none, working := none }

/-- The working result the run in progress starts its scan from (R79). -/
def State.defaultsOf (s : State) : WorkingResult := s.working.getD WorkingResult.defaults

/-- A window at the start-up install (R161, R166). -/
def Window.startupInstall (x : Window) (disabled executing : Bool) : Window :=
  if x.state = .starting then
    { x with state := if disabled then .disabled else if executing then .submitted else .idle }
  else x

/-- The link at the start-up install: LINK_ACK_WINDOW latched (R12), OFF at once where port 2 is disabled
(R179). -/
def Link.startupInstall (l : Link) (ackWindow : Nat) (disabled : Bool) : Link :=
  if disabled then
    { l with
      ackWindow := some ackWindow, state := .off, rxBits := [], pending := none, sending := none }
  else { l with ackWindow := some ackWindow }

/-- The start-up install: table, index, figures and counts, the own-key latches, the ports (R12, R13, R87,
R161, R179). -/
def State.installStartup (s : State) : State :=
  let work := replayRun s.array s.defaultsOf
  let installed :=
    { s.installJournal work with table := installTable KeyRecord.startupInstall work s.table }
  let latched := { installed with portEnable := some (installed.activeNumber keyPortEnable) }
  let executing (p : Port) : Bool := (latched.handler.get p).state = .executing
  { latched with
    window :=
      { window0 := latched.window.window0.startupInstall (latched.isDisabled .port0) (executing .port0)
        window1 := latched.window.window1.startupInstall (latched.isDisabled .port1) (executing .port1) }
    link :=
      latched.link.startupInstall (latched.activeNumber keyLinkAckWindow) (latched.isDisabled .port2) }

/-- The notices at the end of a REBUILD run: REBUILT to each open session that watches, then REBUILD_DONE to
the requesting session while its flag is set (R92). -/
def State.postRebuild (s : State) (requester : Option Requester) (counts : ReplayCounts) : State :=
  match requester with
  | none => s
  | some r =>
    let told :=
      { s with
        session := s.session.map fun _ u =>
          if u.isOpen && !u.watches.isEmpty then u.arrive (.rebuilt r.port) else u }
    if r.notice then told.post r.port (.rebuildDone counts) else told

/-- The rebuild install and its notices (R91, R92, R117). -/
def State.installRebuild (s : State) : State :=
  let work := replayRun s.array s.defaultsOf
  let installed := s.installJournal work
  let table := installTable KeyRecord.rebuildInstall work s.table
  let updated :=
    { installed with
      table := table
      overlays := s.overlays.filter fun o => !table.any fun r => r.key = o.key && r.pinned }
  updated.postRebuild s.requester work.counts

end Sys2Proof.Machine
end

