-- ==== Sys2Proof/Machine/Arbiter.lean ====
section
/-! DEFINITION. The Journal Access Arbiter (R44), the requests that make its claims (COMMIT, REVOKE, REBUILD:
R58, R95, R90), and the commands by which the array's work advances (BURN_PULSE, VERIFY, the installs). -/

namespace Sys2Proof.Machine

/-! ### Grants -/

/-- The array granted to the Replay Engine for a REBUILD run: DEFAULTS, journal REPLAYING (R43, R91). -/
def State.grantRebuild (s : State) : State :=
  { s with
    grant := .replay, replay := .rebuilding, journal := .replaying
    working := some WorkingResult.defaults }

/-- The array granted to the writer for the jobs of the queue in turn, until one holds it or none is left:
a job that ends at its first tests frees the array for the next (R44, R61). -/
def serveJobs : List Job → State → State
  | [], s => { s with grant := .free }
  | j :: rest, s =>
    let started := { s with burnQueue := rest, grant := .writer }.startJob j
    if started.writer = .idle then serveJobs rest started else started

/-- The free array handed to a pending REBUILD, else to the head of the queue, else to none (R44). -/
def State.resolveGrant (s : State) : State :=
  if s.replay = .pending then s.grantRebuild else serveJobs s.burnQueue s

/-- The arbiter acts where the array is free, or where the writer has ended its job (R44). -/
def State.arbitrate (s : State) : State :=
  match s.grant with
  | .free => s.resolveGrant
  | .writer => if s.writer = .idle then s.resolveGrant else s
  | .replay => s

/-- A run that has installed its result frees the array (R44). -/
def State.endRun (s : State) : State := s.resolveGrant

/-! ### Requests that raise a claim -/

/-- The port has a job queued or active (R58, R95). -/
def State.hasJob (s : State) (p : Port) : Bool :=
  s.burnQueue.any (·.port = p) ||
    (match s.active with
      | some a => a.job.port = p
      | none => false) ||
    (s.staging.get p).state = .queued || (s.staging.get p).state = .burning

/-- A job of the port's session appended at the end of the queue (R57). -/
def State.enqueue (s : State) (p : Port) (kind : JobKind) : State :=
  { s with burnQueue := s.burnQueue ++ [⟨p, kind, (s.session.get p).generation, true⟩] }

/-- COMMIT (R58). -/
def serveCommit (s : State) (p : Port) : State × Reply :=
  let l := s.staging.get p
  if !(s.session.get p).isOpen then refuse s .noSession
  else if s.hasJob p then refuse s .busy
  else if l.state = .empty then refuse s .empty
  else
    (((s.setStaging p { l with state := .queued }).enqueue p .commit).arbitrate, .answer .accepted [])

/-- REVOKE (R95). -/
def serveRevoke (s : State) (p : Port) (seq : Nat) : State × Reply :=
  if !(s.session.get p).isOpen then refuse s .noSession
  else if seq = 0 ∨ Config.maxSlots < seq then refuse s .range
  else if s.hasJob p then refuse s .busy
  else ((s.enqueue p (.revoke seq)).arbitrate, .answer .accepted [])

/-- REBUILD (R90). -/
def serveRebuild (s : State) (p : Port) : State × Reply :=
  if !(s.session.get p).isOpen then refuse s .noSession
  else if s.replay ≠ .idle then refuse s .busy
  else
    ({ s with
        replay := .pending, requester := some ⟨p, (s.session.get p).generation, true⟩ }.arbitrate,
      .answer .accepted [])

/-! ### Commands -/

/-- A pulse and its readback complete (R27), or the writer goes on from a moment it was held at (log entry 6);
without a byte under burn there is no pulse (log entry 3). -/
def execBurnPulse (taken : Byte) (s : State) : Host.Outcome State Fault Refusal :=
  .next (s.running fun s => ((s.burnPulse taken s.pauses).arbitrate).settle)

/-- The body readback of a commit in VERIFY completes (R66); otherwise nothing is read back (log entry 3). -/
def execVerify (s : State) : Host.Outcome State Fault Refusal :=
  .next (s.running fun s =>
    match s.writer, s.active with
    | .verify, some a => ((s.stepVerify a s.pauses).arbitrate).settle
    | _, _ => s.settle)

/-- The start-up replay installs its result and frees the array (R87); only in STARTUP (log entry 3). -/
def execStartupReplayDone (s : State) : Host.Outcome State Fault Refusal :=
  .next (s.running fun s =>
    if s.replay = .startup then (s.installStartup.endRun).settle else s.settle)

/-- A REBUILD run installs its result, posts its notices and frees the array (R91, R92, R44); only while a run
holds the array (log entry 3). -/
def execRebuildInstall (s : State) : Host.Outcome State Fault Refusal :=
  .next (s.running fun s =>
    if s.replay = .rebuilding then (s.installRebuild.endRun).settle else s.settle)

/-- The overlays whose count has reached 0 are removed (R113). -/
def execOverlayExpired (s : State) : Host.Outcome State Fault Refusal :=
  .next (s.running fun s => s.expireOverlays.settle)

end Sys2Proof.Machine
end

