-- ==== Sys2Proof/Machine/Link.lean ====
section
/-! DEFINITION. The Link Engine: the symbols it sends and the lows it takes (R168), start marks and collisions
(R170, R174), received frames (R169, R171, R175, R176), sending (R172, R173, R175), link loss (R177), the tick
of the Timebase (R113, R175), and the meanings of the link commands. -/

namespace Sys2Proof.Machine

/-! ### Bits and symbols -/

/-- The bits of a byte, most significant bit first (R168). -/
def bitsOfByte (b : Byte) : List Bool :=
  [b.getLsbD 7, b.getLsbD 6, b.getLsbD 5, b.getLsbD 4, b.getLsbD 3, b.getLsbD 2, b.getLsbD 1, b.getLsbD 0]

/-- The byte whose bits, most significant first, are these (R168). -/
def byteOfBits (bits : List Bool) : Byte := byteOf (bits.foldl (fun n b => 2 * n + b.toNat) 0)

/-- The whole bytes among bits received one after another (R168). -/
def bytesOfBits : List Bool → Bytes
  | b7 :: b6 :: b5 :: b4 :: b3 :: b2 :: b1 :: b0 :: rest =>
    byteOfBits [b7, b6, b5, b4, b3, b2, b1, b0] :: bytesOfBits rest
  | _ => []

/-- What a sender puts on the line (R168). -/
inductive Symbol where
  | bit (value : Bool)
  | endMark
  | startMark
deriving DecidableEq, Repr

/-- How long the Link Engine holds the line low for a symbol, in nanoseconds (R168). -/
def Symbol.lowNs : Symbol → Nat
  | .bit false => 2000
  | .bit true => 6000
  | .endMark => 16000
  | .startMark => 24000

/-- How long the line is then released before the next symbol, in nanoseconds; after an end mark it stays high
(R168). -/
def Symbol.releasedNs : Symbol → Nat
  | .bit false => 6000
  | .bit true => 2000
  | .endMark => 0
  | .startMark => 8000

/-- A frame on the line: a preamble of 16 alternating bits beginning with 0, the start mark, the bytes, the end
mark (R168, R169). -/
def frameSymbols (bytes : Bytes) : List Symbol :=
  (List.range 16).map (fun i => Symbol.bit (i % 2 = 1)) ++ Symbol.startMark ::
    (bytes.flatMap bitsOfByte).map Symbol.bit ++ [Symbol.endMark]

/-- What the part sends while a frame is in TX: the frame its link buffer holds (R169, section 10.3). -/
def Link.sends (l : Link) : List Symbol :=
  if l.state = .tx then frameSymbols (l.buffer.take (8 + (l.buffer.getD 3 0).toNat)) else []

/-! ### Lows on the line -/

/-- How a measured low is taken (R168). -/
inductive LineLow where
  | glitch | bit0 | bit1 | endMark | startMark | violation | linkLoss
deriving DecidableEq, Repr

/-- The class of a low of `ns` nanoseconds (R168). The table leaves open to which side a boundary belongs;
here it begins the longer class, and 5 ms itself is still a violation (DESIGN CHOICE, log entry 9). -/
def classifyLow (ns : Nat) : LineLow :=
  if ns < 500 then .glitch
  else if ns < 4000 then .bit0
  else if ns < 11000 then .bit1
  else if ns < 19000 then .endMark
  else if ns < 32000 then .startMark
  else if ns ≤ 5000000 then .violation
  else .linkLoss

/-! ### Counters and states -/

/-- One more discarded frame (R169, R178). -/
def Link.countCrc (l : Link) : Link := { l with crcErrors := countUp 65535 l.crcErrors }

/-- One more collision (R174, R178). -/
def Link.countCollision (l : Link) : Link := { l with collisions := countUp 65535 l.collisions }

/-- One more loss (R177, R178). -/
def Link.countLoss (l : Link) : Link := { l with losses := countUp 65535 l.losses }

/-- A start mark taken (R168, R170, R174): IDLE and TURN enter RX, in TURN with a frame sendable as a
collision; within a frame the frame so far is discarded. TX, OFF and a held line take none. -/
def State.takeStartMark (s : State) : State :=
  match s.link.state with
  | .idle => s.setLink { s.link with state := .rx, rxBits := [] }
  | .turn =>
    let l := if s.sendable then s.link.countCollision else s.link
    s.setLink { l with state := .rx, rxBits := [] }
  | .rx => s.setLink { s.link.countCrc with rxBits := [] }
  | _ => s

/-- The engine within a frame: already in RX, or taken there by the frame's own start mark from IDLE or TURN;
absent where it takes no frame (R170, log entry 8). -/
def State.withinFrame? (s : State) : Option State :=
  match s.link.state with
  | .rx => some s
  | .idle => some s.takeStartMark
  | .turn => some s.takeStartMark
  | _ => none

/-! ### Received frames -/

/-- The link with another pending answer (R172). -/
def State.setPending (s : State) (a : Option PendingAnswer) : State :=
  s.setLink { s.link with pending := a }

/-- A REQ frame received whole (R171): repeat, busy, new. A new request's delivery ends whatever answer was
pending (R172). -/
def State.takeReq (s : State) (tag kind : Byte) (args : Bytes) : State :=
  let h := s.handler.get .port2
  if h.stored.isSome ∧ h.lastTag = tag then s.setPending (some .response)
  else if h.state = .executing then s.setPending (some (.busy tag))
  else (s.deliver .port2 (Record.make kind tag args)).setPending none

/-- An ACK frame received whole: with the tag of a head marked sent, the head leaves or the marker is
retagged, the timer stops and the send count clears; any other ACK is ignored (R138, R139, R175). -/
def State.takeAck (s : State) (tag : Byte) : State :=
  let u := s.session.get .port2
  match u.queue with
  | [] => s
  | h :: _ =>
    if u.isOpen = true ∧ u.headSent = true ∧ h.tag = tag then
      (s.setSession .port2 u.acknowledge).setLink { s.link with timer := .stopped, sendCount := 0 }
    else s

/-- A RESET frame received whole: a port soft reset of port 2 (R176). -/
def State.takeReset (s : State) : State :=
  ((s.endSession .port2).softReset .port2).setPending none

/-- A frame that passed R169's tests, by its type; RSP, NOTE and BUSY from the partner are ignored (R169). -/
def State.takeFrame (s : State) (type : FrameType) (tag code : Byte) (payload : Bytes) : State :=
  match type with
  | .req => s.takeReq tag code payload
  | .ack => s.takeAck tag
  | .reset => s.takeReset
  | _ => s

/-- The link state set. -/
def State.setLinkState (s : State) (state : LinkState) : State :=
  s.setLink { s.link with state := state }

/-- Received bytes held in the link buffer (section 10.3). -/
def State.bufferBytes (s : State) (bytes : Bytes) : State :=
  s.setLink { s.link with buffer := loadBuffer s.link.buffer bytes }

/-- The frame in RX is over: the engine enters `next` with no bit received (R170). -/
def State.endFrame (s : State) (next : LinkState) : State :=
  s.setLink { s.link with state := next, rxBits := [] }

/-- A frame discarded and counted; the engine enters TURN, or stays in RX where a start mark ended the frame
(R168, R169, R170). -/
def State.discardFrame (s : State) (ending : FrameEnd) : State :=
  (s.setLink s.link.countCrc).endFrame (if ending = .startMark then .rx else .turn)

/-- A frame of known header and payload received up to its end mark (R169, R170). -/
def State.receiveWhole (s : State) (type : FrameType) (tag code : Byte) (payload : Bytes) : State :=
  match s.withinFrame? with
  | none => s
  | some s =>
    let held := s.bufferBytes (frameBytes type tag code payload)
    if payload.length ≤ Config.maxArgs then (held.takeFrame type tag code payload).endFrame .turn
    else held.discardFrame .endMark

/-- The bytes of a frame received, with what ended it (R168, R169, R170). -/
def State.receiveBytes (s : State) (bytes : Bytes) (ending : FrameEnd) : State :=
  match s.withinFrame? with
  | none => s
  | some s =>
    let held := s.bufferBytes bytes
    match ending, readFrame bytes with
    | .endMark, some (type, tag, code, payload) =>
      (held.takeFrame type tag code payload).endFrame .turn
    | _, _ => held.discardFrame ending

/-! ### Sending -/

/-- The pending answer as a frame: the stored response as an RSP, or the BUSY (R169, R173). -/
def State.answerFrame (s : State) (a : PendingAnswer) : Bytes :=
  match a, (s.handler.get .port2).stored with
  | .busy tag, _ => frameBytes .busy tag 0 []
  | .response, some r => frameBytes .rsp r.tag r.status.code r.data
  | .response, none => []

/-- The frame loaded into the link buffer as its sending begins (R173). -/
def State.beginSend (s : State) (sending : Sending) (bytes : Bytes) : State :=
  s.setLink
    { s.link with
      state := .tx, sending := some sending, buffer := loadBuffer s.link.buffer bytes }

/-- The head of port 2's queue selected as a NOTE: marked sent, its count of later arrivals restarted
(R173, R175). -/
def State.beginNote (s : State) : State :=
  let u := s.session.get .port2
  match u.queue with
  | [] => s.setLinkState .idle
  | n :: _ =>
    (s.setSession .port2 u.markSent).beginSend (.note true)
      (frameBytes .note n.tag n.body.code n.body.bytes)

/-- The turnaround completes (R170, R173): the pending answer goes first, then a ready NOTE, else IDLE. -/
def State.completeTurnaround (s : State) : State :=
  if s.link.state ≠ .turn then s
  else
    match s.link.pending with
    | some .response => s.beginSend .response (s.answerFrame .response)
    | some (.busy tag) => s.beginSend (.busy tag) (s.answerFrame (.busy tag))
    | none => if s.noteReady then s.beginNote else s.setLinkState .idle

/-- The end mark of the frame in TX has been sent (R172, R173, R175): an answer stops being pending; after a
NOTE the send count rises and the timer starts. DESIGN CHOICE (log entry 23): after a NOTE whose session ended while it
was in TX the send count does not rise either; R175 says only that no timer is started for it. -/
def Link.endSend (l : Link) : Link :=
  let sent := { l with state := .turn, sending := none }
  match l.sending with
  | some .response => if l.pending = some .response then { sent with pending := none } else sent
  | some (.busy tag) => if l.pending = some (.busy tag) then { sent with pending := none } else sent
  | some (.note true) =>
    { sent with sendCount := l.sendCount + 1, timer := .running (l.ackWindow.getD 0) }
  | _ => sent

/-- Link loss (R177), the engine left in `next`. -/
def State.loseLink (s : State) (next : LinkState) : State :=
  let lost :=
    s.setLink { s.link.countLoss with pending := none, sending := none, state := next, rxBits := [] }
  (lost.softReset .port2).endSession .port2

/-- The line held low for more than 5 ms: one loss, whatever the link state but OFF (R177). -/
def State.holdLow (s : State) : State :=
  match s.link.state with
  | .off => s
  | .heldLow => s
  | _ => s.loseLink .heldLow

/-- The line released after a held-low loss (R177). -/
def State.releaseLine (s : State) : State :=
  if s.link.state = .heldLow then s.setLinkState .idle else s

/-- The expiry of the acknowledgement timer (R175): with a send count below 4 the NOTE is ready again, else
the link is lost. Only a timer with no tick left expires (log entry 3). -/
def State.expireTimer (s : State) : State :=
  if s.link.timer = .running 0 then
    if s.link.sendCount < Config.maxSends then s.setLink { s.link with timer := .expired }
    else s.loseLink .idle
  else s

/-- The expiries still due from an earlier tick, each an event of its own with what follows it: the overlays' first,
then the acknowledgement timer's. Each belongs to the tick that brought its count to 0, so none is later than the
next tick (R113, R175). DESIGN CHOICE (log entry 7): their order, where both are still due. -/
def State.takeDue (s : State) : State :=
  let s := if s.overlays.any (·.due) then s.expireOverlays.settle else s
  if s.link.timer = .running 0 then s.expireTimer.settle else s

/-- One tick of the Timebase (R113, R175). -/
def State.tick (s : State) : State := s.takeDue.countTick

/-- A bit taken within a frame: the link buffer holds the bytes it completes (R168, section 10.3). -/
def State.takeBit (s : State) (bit : Bool) : State :=
  let bits := s.link.rxBits ++ [bit]
  s.setLink { s.link with rxBits := bits, buffer := loadBuffer s.link.buffer (bytesOfBits bits) }

/-- An end mark taken within a frame: on a byte boundary the bytes received are a frame, off it the frame is
discarded (R168). -/
def State.takeEndMark (s : State) : State :=
  if s.link.rxBits.length % 8 = 0 then s.receiveBytes (bytesOfBits s.link.rxBits) .endMark
  else s.discardFrame .violation

/-- A low on the line taken by its class (R168). Outside a frame a glitch, a bit, an end mark or a violation
does nothing but restart the turnaround, whose time the model leaves out. -/
def State.takeLow (s : State) (ns : Nat) : State :=
  match classifyLow ns with
  | .startMark => s.takeStartMark
  | .linkLoss => s.holdLow
  | .glitch => s
  | .bit0 => if s.link.state = .rx then s.takeBit false else s
  | .bit1 => if s.link.state = .rx then s.takeBit true else s
  | .endMark => if s.link.state = .rx then s.takeEndMark else s
  | .violation => if s.link.state = .rx then s.discardFrame .violation else s

/-! ### Commands -/

/-- A REQ frame received whole (R171). -/
def execReq (tag kind : Byte) (args : Bytes) (s : State) : Host.Outcome State Fault Refusal :=
  .next (s.running fun s => (s.receiveWhole .req tag kind args).settle)

/-- An ACK frame received whole (R175). -/
def execAck (tag code : Byte) (s : State) : Host.Outcome State Fault Refusal :=
  .next (s.running fun s => (s.receiveWhole .ack tag code []).settle)

/-- A RESET frame received whole (R176). -/
def execResetFrame (tag code : Byte) (s : State) : Host.Outcome State Fault Refusal :=
  .next (s.running fun s => (s.receiveWhole .reset tag code []).settle)

/-- A received frame that is discarded and counted, or ignored (R169). -/
def execFrameDiscarded (bytes : Bytes) (ending : FrameEnd) (s : State) :
    Host.Outcome State Fault Refusal :=
  .next (s.running fun s => (s.receiveBytes bytes ending).settle)

/-- The turnaround completes (R173). -/
def execTurnaroundComplete (s : State) : Host.Outcome State Fault Refusal :=
  .next (s.running fun s => s.completeTurnaround.settle)

/-- The end mark of the frame in TX is sent (R173); outside TX no frame is being sent (log entry 3). -/
def execFrameSendComplete (s : State) : Host.Outcome State Fault Refusal :=
  .next (s.running fun s =>
    if s.link.state = .tx then (s.setLink s.link.endSend).settle else s.settle)

/-- One tick of the Timebase (R113, R175). -/
def execTimebaseTick (s : State) : Host.Outcome State Fault Refusal :=
  .next (s.running fun s => s.tick.settle)

/-- The acknowledgement timer expires (R175). -/
def execAckTimerExpiry (s : State) : Host.Outcome State Fault Refusal :=
  .next (s.running fun s => s.expireTimer.settle)

/-- The line has been held low for more than 5 ms (R177). -/
def execLinkLoss (s : State) : Host.Outcome State Fault Refusal :=
  .next (s.running fun s => s.holdLow.settle)

/-- The line is released after a held-low loss (R177). -/
def execLinkLineReleased (s : State) : Host.Outcome State Fault Refusal :=
  .next (s.running fun s => s.releaseLine.settle)

/-- A start mark is taken (R174). -/
def execStartMark (s : State) : Host.Outcome State Fault Refusal :=
  .next (s.running fun s => s.takeStartMark.settle)

/-- A low that is neither a start mark nor a link loss: a bit, a mark or noise (R168). -/
def execPreambleOrNoise (lowNs : Nat) (s : State) : Host.Outcome State Fault Refusal :=
  .next (s.running fun s => (s.takeLow lowNs).settle)

end Sys2Proof.Machine
end

