-- ==== Sys2Proof/Machine/Reads.lean ====
section
/-! DEFINITION. The read requests GET, GET_DETAIL, CATALOG_READ (R153 to R155), JOURNAL_STAT (R156),
JOURNAL_READ (R45), ENTRY_READ (R41) and LINK_STAT (R178). -/

namespace Sys2Proof.Machine

/-- GET (R153, R182). -/
def serveGet (s : State) (_p : Port) (key : Nat) : State × Reply :=
  if s.rebuildRuns then refuse s .rebuilding
  else if (descriptor? key).isNone then refuse s .unknownKey
  else
    (s, .answer .ok
      (field16 key ++ flagByte (s.overlay? key).isSome :: valueField (s.effectiveValue key)))

/-- The flags byte of GET_DETAIL: bit 0 pinned, bit 1 stale (R182). -/
def detailFlags (pinned stale : Bool) : Byte :=
  byteOf ((if pinned then 1 else 0) + if stale then 2 else 0)

/-- The GET_DETAIL data of a key's record (R154, R182). -/
def detailData (s : State) (r : KeyRecord) : Bytes :=
  field16 r.key ++ detailFlags r.pinned (s.isStale r) :: (field16 r.provenance ++ optional16 r.pinSeq ++
    valueField r.active ++ optionalValueField r.pending ++ overlaySummary (s.overlay? r.key))

/-- GET_DETAIL (R154). -/
def serveGetDetail (s : State) (_p : Port) (key : Nat) : State × Reply :=
  if s.rebuildRuns then refuse s .rebuilding
  else if (descriptor? key).isNone then refuse s .unknownKey
  else
    match s.keyRecord? key with
    | some r => (s, .answer .ok (detailData s r))
    | none => refuse s .unknownKey

/-- CATALOG_READ (R155). -/
def serveCatalogRead (s : State) (_p : Port) (position : Nat) : State × Reply :=
  match descriptorAt? position with
  | some d => (s, .answer .ok d.bytes)
  | none => refuse s .range

/-- JOURNAL_STAT (R156, R182); lastRevoke reads NONE where the port has no open session (R100). -/
def serveJournalStat (s : State) (p : Port) : State × Reply :=
  let u := s.session.get p
  let revoked : Result × Option Nat :=
    if u.isOpen then (u.lastRevoke, u.lastRevokeSeq) else (.none, none)
  (s, .answer .ok
    ([s.journal.code, s.replay.code] ++ field16 s.bodyTop ++ field16 s.directoryBottom ++
      field16 s.freeSpace ++ field16 s.slotsUsed ++ s.counts.bytes ++
      revoked.1.code :: optional16 revoked.2))

/-- The bytes a JOURNAL_READ returns: the array as it stands (R45). -/
def journalBytes (s : State) (offset length : Nat) : Bytes := s.array.readRange offset length

/-- JOURNAL_READ (R45): held while the array is granted to the Replay Engine. -/
def serveJournalRead (s : State) (_p : Port) (offset length : Nat) : State × Reply :=
  if length = 0 ∨ Config.maxArgs < length ∨ 0x2FFF < offset ∨ 0x3000 < offset + length then
    refuse s .range
  else if s.grant = .replay then (s, .held)
  else (s, .answer .ok (journalBytes s offset length))

/-- ENTRY_READ (R41, R182). -/
def serveEntryRead (s : State) (_p : Port) (seq : Nat) : State × Reply :=
  if seq = 0 ∨ Config.maxSlots < seq then refuse s .range
  else
    match s.entry? seq with
    | some r => (s, .answer .ok r.bytes)
    | none => refuse s .notFound

/-- LINK_STAT (R178, R182): the counters are read, then cleared where asked, also while port 2 is OFF, of which
R178 says both that the flag clears them and that they do not change (DESIGN CHOICE, log entry 19). -/
def serveLinkStat (s : State) (_p : Port) (clear : Bool) : State × Reply :=
  let l := s.link
  let data :=
    field16 l.crcErrors ++ field16 l.collisions ++ field16 l.losses ++ [byteOf (l.ackWindow.getD 0)]
  (if clear then s.setLink { l with crcErrors := 0, collisions := 0, losses := 0 } else s,
    .answer .ok data)

end Sys2Proof.Machine
end

