-- ==== Sys2Proof/Machine/Requests.lean ====
section
/-! DEFINITION. The request commands: a record reaches the block that owns its state (R144, steps 3 and 4),
the answer becomes ready (R145), and one meaning for each request kind. -/

namespace Sys2Proof.Machine

/-! ### From the handler to the owning block -/

/-- The block that owns the state a request concerns takes it (R144, step 3). -/
def State.serve (s : State) (p : Port) : Request → State × Reply
  | .get key => serveGet s p key
  | .getDetail key => serveGetDetail s p key
  | .catalogRead position => serveCatalogRead s p position
  | .openSession => serveOpen s p
  | .closeSession => serveClose s p
  | .watch first last => serveWatch s p first last
  | .unwatch first last => serveUnwatch s p first last
  | .noticeRead => serveNoticeRead s p
  | .stageAssign key value guard => serveStageAssign s p key value guard
  | .stageRetire key guard => serveStageRetire s p key guard
  | .stagePin key => serveStagePin s p key
  | .stageDrop key => serveStageDrop s p key
  | .stageClear => serveStageClear s p
  | .stageList index => serveStageList s p index
  | .commit => serveCommit s p
  | .abort => serveAbort s p
  | .commitResult => serveCommitResult s p
  | .overlaySet key value lifetime bound => serveOverlaySet s p key value lifetime bound
  | .overlayClear key => serveOverlayClear s p key
  | .overlayList index => serveOverlayList s p index
  | .revoke seq => serveRevoke s p seq
  | .rebuild => serveRebuild s p
  | .journalStat => serveJournalStat s p
  | .journalRead offset length => serveJournalRead s p offset length
  | .entryRead seq => serveEntryRead s p seq
  | .linkStat clear => serveLinkStat s p clear

/-- The reply as what lies ahead of the request: the answer with its tag, or the wait of a held read. -/
def Reply.service (reply : Reply) (tag : Byte) : Service :=
  match reply with
  | .answer status data => .answered ⟨status, tag, data⟩
  | .held => .held

/-- The service of a port's current request set. -/
def State.setService (s : State) (p : Port) (service : Service) : State :=
  s.setHandler p { s.handler.get p with service := service }

/-- The current request carried to its block, whose outcome becomes the answer (R144, steps 3 and 4). A record
malformed for its kind was answered at its delivery. -/
def State.carryCurrent (s : State) (p : Port) : State :=
  match (s.handler.get p).current with
  | none => s
  | some r =>
    match r.request? with
    | none => s
    | some q =>
      let served := s.serve p q
      served.1.setService p (served.2.service r.tag)

/-- The master of the port submits a record: bytes and GO at a window, a REQ frame on the link (R162, R171). -/
def State.submit (s : State) (p : Port) (r : Record) : State :=
  match windowOf p with
  | some w => s.submitToWindow w r
  | none => s.receiveWhole .req r.tag r.kind r.args

/-- The record delivered, if the handler does not hold it yet. -/
def State.submitOnce (s : State) (p : Port) (r : Record) : State :=
  if s.awaits p r then s else s.submit p r

/-- The record carried, if the handler holds it and no test of R147 has answered it. -/
def State.carryOnce (s : State) (p : Port) (r : Record) : State :=
  if s.awaits p r then s.carryCurrent p else s

/-- A request record sent on a port and taken by its handler (R144): a record that a GO or a REQ frame has
already delivered is taken now; any other is submitted first, and the transport may turn it away (log
entry 4). -/
def State.request (s : State) (p : Port) (r : Record) : State :=
  (s.submitOnce p r).carryOnce p r

/-- The common form of the request commands. -/
def execRequest (p : Port) (r : Record) (s : State) : Host.Outcome State Fault Refusal :=
  .next (s.running fun s => (s.request p r).settle)

/-- The answer becomes ready: a request still on its way to its block is taken first; an answer is handed over;
a held read has none yet (R145, R146, R45). -/
def State.answerReady (s : State) (p : Port) : State :=
  if (s.handler.get p).state = .idle then s
  else
    let s := if (s.handler.get p).service = .waiting then s.carryCurrent p else s
    match (s.handler.get p).service with
    | .answered r => s.handOver p r
    | _ => s

/-- A held read is taken once no run holds the array, and its answer handed over (R45, R146). -/
def State.serveHeldRead (s : State) (p : Port) : State :=
  let h := s.handler.get p
  if h.state = .executing ∧ h.service = .held ∧ s.grant ≠ .replay then
    match h.current with
    | none => s
    | some r =>
      match r.request? with
      | some (.journalRead offset length) => s.handOver p ⟨.ok, r.tag, journalBytes s offset length⟩
      | _ => s
  else s

/-! ### Commands -/

/-- GET (R153). -/
def execGet (p : Port) (tag : Byte) (key : Word16) (s : State) : Host.Outcome State Fault Refusal :=
  execRequest p (RequestKind.get.record tag (bytes16 key)) s

/-- GET_DETAIL (R154). -/
def execGetDetail (p : Port) (tag : Byte) (key : Word16) (s : State) : Host.Outcome State Fault Refusal :=
  execRequest p (RequestKind.getDetail.record tag (bytes16 key)) s

/-- CATALOG_READ (R155). -/
def execCatalogRead (p : Port) (tag position : Byte) (s : State) : Host.Outcome State Fault Refusal :=
  execRequest p (RequestKind.catalogRead.record tag [position]) s

/-- OPEN (R122). -/
def execOpenSession (p : Port) (tag : Byte) (s : State) : Host.Outcome State Fault Refusal :=
  execRequest p (RequestKind.openSession.record tag []) s

/-- CLOSE (R123). -/
def execCloseSession (p : Port) (tag : Byte) (s : State) : Host.Outcome State Fault Refusal :=
  execRequest p (RequestKind.closeSession.record tag []) s

/-- WATCH (R128). -/
def execWatch (p : Port) (tag : Byte) (first last : Word16) (s : State) :
    Host.Outcome State Fault Refusal :=
  execRequest p (RequestKind.watch.record tag (bytes16 first ++ bytes16 last)) s

/-- UNWATCH (R129). -/
def execUnwatch (p : Port) (tag : Byte) (first last : Word16) (s : State) :
    Host.Outcome State Fault Refusal :=
  execRequest p (RequestKind.unwatch.record tag (bytes16 first ++ bytes16 last)) s

/-- NOTICE_READ (R137). -/
def execNoticeRead (p : Port) (tag : Byte) (s : State) : Host.Outcome State Fault Refusal :=
  execRequest p (RequestKind.noticeRead.record tag []) s

/-- STAGE_ASSIGN (R51). -/
def execStageAssign (p : Port) (tag : Byte) (key : Word16) (value : Bytes) (guard : GuardArg)
    (s : State) : Host.Outcome State Fault Refusal :=
  execRequest p (RequestKind.stageAssign.record tag (stageAssignArgs key value guard)) s

/-- STAGE_RETIRE (R52). -/
def execStageRetire (p : Port) (tag : Byte) (key : Word16) (guard : GuardArg) (s : State) :
    Host.Outcome State Fault Refusal :=
  execRequest p (RequestKind.stageRetire.record tag (stageRetireArgs key guard)) s

/-- STAGE_PIN (R53). -/
def execStagePin (p : Port) (tag : Byte) (key : Word16) (s : State) : Host.Outcome State Fault Refusal :=
  execRequest p (RequestKind.stagePin.record tag (bytes16 key)) s

/-- STAGE_DROP (R54). -/
def execStageDrop (p : Port) (tag : Byte) (key : Word16) (s : State) : Host.Outcome State Fault Refusal :=
  execRequest p (RequestKind.stageDrop.record tag (bytes16 key)) s

/-- STAGE_CLEAR (R55). -/
def execStageClear (p : Port) (tag : Byte) (s : State) : Host.Outcome State Fault Refusal :=
  execRequest p (RequestKind.stageClear.record tag []) s

/-- STAGE_LIST (R56). -/
def execStageList (p : Port) (tag index : Byte) (s : State) : Host.Outcome State Fault Refusal :=
  execRequest p (RequestKind.stageList.record tag [index]) s

/-- COMMIT (R58). -/
def execCommit (p : Port) (tag : Byte) (s : State) : Host.Outcome State Fault Refusal :=
  execRequest p (RequestKind.commit.record tag []) s

/-- ABORT (R59). -/
def execAbort (p : Port) (tag : Byte) (s : State) : Host.Outcome State Fault Refusal :=
  execRequest p (RequestKind.abort.record tag []) s

/-- COMMIT_RESULT (R75). -/
def execCommitResult (p : Port) (tag : Byte) (s : State) : Host.Outcome State Fault Refusal :=
  execRequest p (RequestKind.commitResult.record tag []) s

/-- OVERLAY_SET (R109). -/
def execOverlaySet (p : Port) (tag : Byte) (key : Word16) (value : Bytes) (lifetime : Word16)
    (bound : Bool) (s : State) : Host.Outcome State Fault Refusal :=
  execRequest p (RequestKind.overlaySet.record tag (overlaySetArgs key value lifetime bound)) s

/-- OVERLAY_CLEAR (R111). -/
def execOverlayClear (p : Port) (tag : Byte) (key : Word16) (s : State) :
    Host.Outcome State Fault Refusal :=
  execRequest p (RequestKind.overlayClear.record tag (bytes16 key)) s

/-- OVERLAY_LIST (R112). -/
def execOverlayList (p : Port) (tag index : Byte) (s : State) : Host.Outcome State Fault Refusal :=
  execRequest p (RequestKind.overlayList.record tag [index]) s

/-- REVOKE (R95). -/
def execRevoke (p : Port) (tag : Byte) (seq : Word16) (s : State) : Host.Outcome State Fault Refusal :=
  execRequest p (RequestKind.revoke.record tag (bytes16 seq)) s

/-- REBUILD (R90). -/
def execRebuild (p : Port) (tag : Byte) (s : State) : Host.Outcome State Fault Refusal :=
  execRequest p (RequestKind.rebuild.record tag []) s

/-- JOURNAL_STAT (R156). -/
def execJournalStat (p : Port) (tag : Byte) (s : State) : Host.Outcome State Fault Refusal :=
  execRequest p (RequestKind.journalStat.record tag []) s

/-- JOURNAL_READ (R45). -/
def execJournalRead (p : Port) (tag : Byte) (offset : Word16) (length : Byte) (s : State) :
    Host.Outcome State Fault Refusal :=
  execRequest p (RequestKind.journalRead.record tag (bytes16 offset ++ [length])) s

/-- ENTRY_READ (R41). -/
def execEntryRead (p : Port) (tag : Byte) (seq : Word16) (s : State) : Host.Outcome State Fault Refusal :=
  execRequest p (RequestKind.entryRead.record tag (bytes16 seq)) s

/-- LINK_STAT (R178). -/
def execLinkStat (p : Port) (tag : Byte) (clear : Bool) (s : State) : Host.Outcome State Fault Refusal :=
  execRequest p (RequestKind.linkStat.record tag [flagByte clear]) s

/-- A record whose kind code names no request kind: BAD_REQUEST after the other common tests (R147, R148). -/
def execUnknownRequestKind (p : Port) (tag kind : Byte) (args : Bytes) (s : State) :
    Host.Outcome State Fault Refusal :=
  execRequest p (Record.make kind tag args) s

/-- A held JOURNAL_READ is taken after the run (R45); nothing where none is held or a run goes on (log
entry 3). -/
def execHeldJournalReadServed (p : Port) (s : State) : Host.Outcome State Fault Refusal :=
  .next (s.running fun s => (s.serveHeldRead p).settle)

/-- The answer of the port's current request becomes ready (R145, R146); nothing while the handler is IDLE (log
entry 3). -/
def execAnswerReady (p : Port) (s : State) : Host.Outcome State Fault Refusal :=
  .next (s.running fun s => (s.answerReady p).settle)

end Sys2Proof.Machine
end

