-- ==== Sys2Proof/Machine/Device.lean ====
section
/-! DEFINITION. The device as a whole: a device reset and its release (R25, R29, R46, R73, R77, R118, R140,
R157, R167, R179), the BURN_EN input (R28) and a defective cell (R26). -/

namespace Sys2Proof.Machine

/-- The byte under burn, with its target (R27). -/
def State.underBurn (s : State) : Option (Nat × Byte) :=
  match s.active with
  | some a => a.todo.head?
  | none => none

/-- A pulse cut short by the reset leaves its cell with the bits `cut` of those it was setting; it acts only
while BURN_EN is high (R28, R29). -/
def State.cutPulse (s : State) (cut : Byte) : State :=
  match s.underBurn with
  | some (offset, target) => s.pulseCell offset (cut &&& target)
  | none => s

/-- A window port under a device reset: its reset values, the strap standing until the release reads it afresh (R157,
R167), and what the outside will do with CS as before. -/
def Window.underReset (x : Window) : Window := { Window.reset x.strap with csRises := x.csRises }

/-- RESET asserted: every volatile block at its reset value, the array as it stands, the engine held. -/
def State.assertReset (s : State) : State :=
  { State.reset with
    array := s.array
    window := ⟨s.window.window0.underReset, s.window.window1.underReset⟩
    burnEn := s.burnEn
    replay := .idle, working := none
    resetAsserted := true
    pauses := s.pauses
    pending := s.pending }

/-- RESET released: the straps are read, and the engine enters STARTUP, past its DEFAULTS step (R77 to R79,
R157). -/
def State.releaseReset (s : State) (strap0 strap1 : StrapPin) : State :=
  { s with
    window := ⟨{ s.window.window0 with strap := strap0 }, { s.window.window1 with strap := strap1 }⟩
    replay := .startup, requester := none, working := some WorkingResult.defaults
    resetAsserted := false }

/-! ### Commands -/

/-- Power-on, or RESET asserted (R25, R29, R73). -/
def execDeviceReset (cut : Byte) (s : State) : Host.Outcome State Fault Refusal :=
  .next (s.cutPulse cut).assertReset

/-- Power-on completes, or RESET is released (R77, R157); nothing while RESET is not asserted (log entry 3). -/
def execResetRelease (strap0 strap1 : StrapPin) (s : State) : Host.Outcome State Fault Refusal :=
  .next (if s.resetAsserted then s.releaseReset strap0 strap1 else s)

/-- The BURN_EN input changes, whatever else holds (R28). -/
def execBurnEnChange (level : Bool) (s : State) : Host.Outcome State Fault Refusal :=
  .next { s with burnEn := level }

/-- A defective cell gains bits without a burn, at any time (R26). The array has no cell at 3000h or above. -/
def execCellBitGain (offset : Word16) (bits : Byte) (s : State) : Host.Outcome State Fault Refusal :=
  if offset.toNat < Config.arrayBytes then
    .next { s with array := s.array.setBits offset.toNat bits }
  else .fault (.noSuchCell offset.toNat)

end Sys2Proof.Machine
end

