-- ==== Sys2Proof/Machine/Dispatch.lean ====
section
/-! DEFINITION. The dispatch of every command to its meaning. -/

namespace Sys2Proof.Machine

def exec (i : Instr) (s : State) : Host.Outcome State Fault Refusal :=
  match i with
  | .get p tag key => Sys2Proof.Machine.execGet p tag key s
  | .getDetail p tag key => Sys2Proof.Machine.execGetDetail p tag key s
  | .catalogRead p tag position => Sys2Proof.Machine.execCatalogRead p tag position s
  | .openSession p tag => Sys2Proof.Machine.execOpenSession p tag s
  | .closeSession p tag => Sys2Proof.Machine.execCloseSession p tag s
  | .watch p tag first last => Sys2Proof.Machine.execWatch p tag first last s
  | .unwatch p tag first last => Sys2Proof.Machine.execUnwatch p tag first last s
  | .noticeRead p tag => Sys2Proof.Machine.execNoticeRead p tag s
  | .stageAssign p tag key value guard => Sys2Proof.Machine.execStageAssign p tag key value guard s
  | .stageRetire p tag key guard => Sys2Proof.Machine.execStageRetire p tag key guard s
  | .stagePin p tag key => Sys2Proof.Machine.execStagePin p tag key s
  | .stageDrop p tag key => Sys2Proof.Machine.execStageDrop p tag key s
  | .stageClear p tag => Sys2Proof.Machine.execStageClear p tag s
  | .stageList p tag index => Sys2Proof.Machine.execStageList p tag index s
  | .commit p tag => Sys2Proof.Machine.execCommit p tag s
  | .abort p tag => Sys2Proof.Machine.execAbort p tag s
  | .commitResult p tag => Sys2Proof.Machine.execCommitResult p tag s
  | .overlaySet p tag key value lifetime bound => Sys2Proof.Machine.execOverlaySet p tag key value lifetime bound s
  | .overlayClear p tag key => Sys2Proof.Machine.execOverlayClear p tag key s
  | .overlayList p tag index => Sys2Proof.Machine.execOverlayList p tag index s
  | .revoke p tag seq => Sys2Proof.Machine.execRevoke p tag seq s
  | .rebuild p tag => Sys2Proof.Machine.execRebuild p tag s
  | .journalStat p tag => Sys2Proof.Machine.execJournalStat p tag s
  | .journalRead p tag offset length => Sys2Proof.Machine.execJournalRead p tag offset length s
  | .entryRead p tag seq => Sys2Proof.Machine.execEntryRead p tag seq s
  | .linkStat p tag clear => Sys2Proof.Machine.execLinkStat p tag clear s
  | .unknownRequestKind p tag kind args => Sys2Proof.Machine.execUnknownRequestKind p tag kind args s
  | .heldJournalReadServed p => Sys2Proof.Machine.execHeldJournalReadServed p s
  | .go w => Sys2Proof.Machine.execGo w s
  | .take w => Sys2Proof.Machine.execTake w s
  | .portReset w => Sys2Proof.Machine.execPortReset w s
  | .unknownControlCode w code => Sys2Proof.Machine.execUnknownControlCode w code s
  | .requestAreaWrite w offset data => Sys2Proof.Machine.execRequestAreaWrite w offset data s
  | .attnEnableWrite w data => Sys2Proof.Machine.execAttnEnableWrite w data s
  | .windowWriteIgnored w offset data => Sys2Proof.Machine.execWindowWriteIgnored w offset data s
  | .req tag kind args => Sys2Proof.Machine.execReq tag kind args s
  | .ack tag code => Sys2Proof.Machine.execAck tag code s
  | .resetFrame tag code => Sys2Proof.Machine.execResetFrame tag code s
  | .frameDiscarded bytes ending => Sys2Proof.Machine.execFrameDiscarded bytes ending s
  | .turnaroundComplete => Sys2Proof.Machine.execTurnaroundComplete s
  | .frameSendComplete => Sys2Proof.Machine.execFrameSendComplete s
  | .ackTimerExpiry => Sys2Proof.Machine.execAckTimerExpiry s
  | .linkLoss => Sys2Proof.Machine.execLinkLoss s
  | .linkLineReleased => Sys2Proof.Machine.execLinkLineReleased s
  | .deviceReset cut => Sys2Proof.Machine.execDeviceReset cut s
  | .resetRelease strap0 strap1 => Sys2Proof.Machine.execResetRelease strap0 strap1 s
  | .startupReplayDone => Sys2Proof.Machine.execStartupReplayDone s
  | .rebuildInstall => Sys2Proof.Machine.execRebuildInstall s
  | .timebaseTick => Sys2Proof.Machine.execTimebaseTick s
  | .overlayExpired => Sys2Proof.Machine.execOverlayExpired s
  | .burnPulse taken => Sys2Proof.Machine.execBurnPulse taken s
  | .verify => Sys2Proof.Machine.execVerify s
  | .cellBitGain offset bits => Sys2Proof.Machine.execCellBitGain offset bits s
  | .startMark => Sys2Proof.Machine.execStartMark s
  | .answerReady p => Sys2Proof.Machine.execAnswerReady p s
  | .burnEnChange level => Sys2Proof.Machine.execBurnEnChange level s
  | .windowPointerSet w byte => Sys2Proof.Machine.execWindowPointerSet w byte s
  | .windowByteRead w => Sys2Proof.Machine.execWindowByteRead w s
  | .preambleOrNoise lowNs => Sys2Proof.Machine.execPreambleOrNoise lowNs s

end Sys2Proof.Machine
end

