-- ==== Sys2Proof/Safety.lean ====
section
/-! DEFINITION. What counts as a sound state of the part: the laws the manual states of its tables, queues and
lines, one predicate for each. -/

namespace Sys2Proof.Machine

/-! ### The journal -/

/-- No bit set in the first array is clear in the second (the law of R26). -/
def Memory.keepsBits (before after : Memory) : Prop :=
  ∀ offset, before.read offset &&& ~~~after.read offset = 0

/-- The record numbering of R37: one record per used slot, numbered 1, 2, 3, … without gaps. -/
def State.indexNumbered (s : State) : Prop :=
  s.index.map IndexRecord.seq = (List.range s.slotsUsed).map (· + 1)

/-- The directory law of R31: body top never above directory bottom, at most 256 slots used. -/
def State.regionsApart (s : State) : Prop :=
  s.slotsUsed ≤ Config.maxSlots ∧ s.bodyTop ≤ s.directoryBottom

/-- Who holds the array (R44, R61, R77): the writer exactly while it serves a job, the Replay Engine exactly
while a run goes on; a free array has no job and no REBUILD waiting. -/
def State.grantLaw (s : State) : Prop :=
  (s.grant = .writer ↔ s.writer ≠ .idle) ∧
  (s.resetAsserted = false → (s.grant = .replay ↔ s.replay = .startup ∨ s.replay = .rebuilding)) ∧
  (s.grant = .free → s.burnQueue = [] ∧ s.replay ≠ .pending) ∧
  (s.resetAsserted = true → s.grant = .replay)

/-- The active job stands exactly while the writer is not IDLE; a body under burn is the planned entry, at body
top, for the next free slot, within the free space; and once BODY has ended, body top stands past it and the
slot is still to begin (R61, R62, R64, R65). -/
def State.planLaw (s : State) : Prop :=
  (s.active = none ↔ s.writer = .idle) ∧
  (∀ a, s.active = some a →
    (s.writer = .body → a.moment = .none →
      a.slot = s.slotsUsed ∧ a.bodyOffset = s.bodyTop ∧ s.slotsUsed < Config.maxSlots ∧
      s.bodyTop + a.bodyLength + Config.slotBytes ≤ s.directoryBottom) ∧
    ∀ whole, a.moment = .bodyEnded whole →
      a.slot = s.slotsUsed ∧ s.slotsUsed < Config.maxSlots ∧
      s.bodyTop + Config.slotBytes ≤ s.directoryBottom)

/-- The laws of the journal together (R31, R37, R44, R61). -/
def State.journalLaw (s : State) : Prop :=
  s.indexNumbered ∧ s.regionsApart ∧ s.grantLaw ∧ s.planLaw

/-- Every used slot was classified once (R88). -/
def ReplayCounts.balanced (c : ReplayCounts) : Prop :=
  c.total = c.applied + c.revoked + c.void + c.torn + c.corrupt

/-- The law of R57: at most one job per port, queued or held by the writer. -/
def State.queueLaw (s : State) : Prop :=
  ((s.active.toList.map (·.job.port)) ++ s.burnQueue.map Job.port).Nodup

/-! ### The tables -/

/-- The law of R15 and the pin fields of Table 1-5: a pending value stands on a DEFERRED key only and differs
from the active value; pinSeq is present exactly when the key is pinned. -/
def KeyRecord.lawful (r : KeyRecord) : Prop :=
  (∀ v, r.pending = some v →
    (descriptor? r.key).map Descriptor.applyMode = some .deferred ∧ v ≠ r.active) ∧
  r.pinSeq.isSome = r.pinned

/-- One lawful record per catalog key, in catalog position order (section 1.3, R15); the working result of a run
is its DEFAULTS step until the run installs (R79). -/
def State.tableLaw (s : State) : Prop :=
  s.table.map KeyRecord.key = catalogKeys ∧ (∀ r ∈ s.table, r.lawful) ∧
  (s.working = none ∨ s.working = some WorkingResult.defaults)

/-- A bound overlay's owner has an open session of the overlay's generation (R107). -/
def State.boundLaw (s : State) : Prop :=
  ∀ o ∈ s.overlays, o.bound = true →
    (s.session.get o.ownerPort).isOpen = true ∧
    (s.session.get o.ownerPort).generation = o.ownerGeneration

/-- The laws of R107 and R16: at most 16 overlays, in rising key order and so at most one per key, bound ones with
their session, none on a pinned key. -/
def State.overlayLaw (s : State) : Prop :=
  s.overlays.length ≤ Config.maxOverlays ∧ (s.overlays.map OverlayRecord.key).Pairwise (· < ·) ∧
  s.boundLaw ∧ ∀ o ∈ s.overlays, s.isPinned o.key = false

/-- What stands between a device reset and the install of the start-up replay: nothing of any host (R78), and body top
and slots used at 0 (DESIGN CHOICE, log entry 18). -/
def State.blank (s : State) : Prop :=
  s.overlays = [] ∧ s.burnQueue = [] ∧ s.active = none ∧ s.writer = .idle ∧ s.requester = none ∧
  s.index = [] ∧ s.slotsUsed = 0 ∧ s.bodyTop = 0 ∧ s.table = resetTable ∧ s.journal = .replaying ∧
  s.portEnable = none ∧
  ∀ p, (s.session.get p) = Session.reset ∧ (s.staging.get p) = StagingList.reset ∧
    ((s.handler.get p).state = .executing → (s.handler.get p).service ≠ .waiting)

/-- The part holds nothing of any host while RESET is asserted and until the start-up replay installs (R78,
R147). -/
def State.startupLaw (s : State) : Prop :=
  s.resetAsserted = true ∨ s.replay = .startup → s.blank

/-! ### Staging, sessions and notices -/

/-- The law of R47. -/
def StagingList.lawful (l : StagingList) : Prop :=
  l.actions.length ≤ Config.maxActions ∧ (l.actions.map Action.key).Nodup ∧
  encodedLength l.actions ≤ Config.maxBody ∧ (l.state = .empty → l.actions = [])

/-- The law of R47 on every port. -/
def State.stagingLaw (s : State) : Prop := ∀ p, (s.staging.get p).lawful

/-- The key and layer a VALUE_CHANGED notice tells of. -/
def Notice.subject? (n : Notice) : Option (Nat × Layer) :=
  match n.body with
  | .valueChanged key layer _ _ _ => some (key, layer)
  | _ => none

/-- The notices of a queue that are undelivered: all but a head marked sent (R134, R138). -/
def Session.undelivered (u : Session) : List Notice := if u.headSent then u.queue.tail else u.queue

/-- The law of R134: at most 16 notices, a marker only at the end and a sixteenth only as the marker, no two
undelivered VALUE_CHANGED for one key and layer. -/
def Session.queueLawful (u : Session) : Prop :=
  u.queue.length ≤ Config.noticeRoom + 2 ∧
  (u.queue.length = Config.noticeRoom + 2 → u.queue.any Notice.isMarker = true) ∧
  (∀ n ∈ u.queue.dropLast, n.isMarker = false) ∧
  (u.undelivered.filterMap Notice.subject?).Nodup

/-- The law of R134 on every port. -/
def State.noticeLaw (s : State) : Prop := ∀ p, (s.session.get p).queueLawful

/-- A CLOSED session watches nothing, holds no notice and no last revoke (R124). -/
def Session.closedClean (u : Session) : Prop :=
  u.isOpen = false → u.watches = [] ∧ u.queue = [] ∧ u.lastRevoke = .none ∧ u.lastRevokeSeq = none

/-- A job or run whose notice flag is set was accepted by the session its port now has open (R57, R77, R125). -/
def State.claimLaw (s : State) : Prop :=
  (∀ j ∈ s.active.toList.map ActiveJob.job ++ s.burnQueue, j.notice = true →
    (s.session.get j.port).isOpen = true ∧ (s.session.get j.port).generation = j.generation) ∧
  (∀ r ∈ s.requester, r.notice = true →
    (s.session.get r.port).isOpen = true ∧ (s.session.get r.port).generation = r.generation)

/-- The session laws together (R57, R77, R124, R125). -/
def State.sessionLaw (s : State) : Prop :=
  (∀ p, (s.session.get p).closedClean) ∧ s.claimLaw

/-! ### Lines -/

/-- Each ATTN line follows its two conditions (R165). -/
def State.attnLaw (s : State) : Prop := ∀ w, (s.window.get w).attn = s.attnHolds w

/-- An IDLE link has nothing to send (R170), and bits of a frame stand in RX alone (R168). -/
def State.linkLaw (s : State) : Prop :=
  (s.link.state = .idle → s.sendable = false) ∧ (s.link.state ≠ .rx → s.link.rxBits = [])

/-! ### Sizes of the port memories -/

/-- The request and response areas keep their 64 bytes and the link buffer its 68 (R160, section 10.3). -/
def State.areasSized (s : State) : Prop :=
  (∀ w, (s.window.get w).requestArea.length = Config.areaBytes ∧
    (s.window.get w).responseArea.length = Config.areaBytes) ∧
  s.link.buffer.length = Config.linkBufferBytes

/-! ### Requests on their way -/

/-- The record of a request command reaches the block that owns the state it concerns: RESET is released, and in
`d`, the state after the record's delivery (none is made where the handler already holds it), the handler holds
the record and no test of R147 has answered it (R144, log entry 4). -/
def State.takes (s : State) (p : Port) (r : Record) (d : State) : Prop :=
  s.resetAsserted = false ∧ d = s.submitOnce p r ∧ d.awaits p r = true

/-- The port's current request answered with this response, not yet handed to the transport (R144, step 4). -/
def State.answers (d : State) (p : Port) (tag : Byte) (status : Status) (data : Bytes) : State :=
  (d.setService p (.answered ⟨status, tag, data⟩)).settle

/-- The guard a guard argument names (R49). -/
def guardOf : GuardArg → Guard
  | .none => .none
  | .equals value => .equals value
  | .untouched => .untouched

/-! ### Bytes under burn -/

/-- Every byte of the run reads its target (R27). -/
def Memory.burnt (m : Memory) (todo : List (Nat × Byte)) : Prop := ∀ x ∈ todo, m.read x.1 = x.2

/-- The first byte of the run that does not read its target is `next`, with the bytes `after` behind it (R27). -/
def Memory.stopsAt (m : Memory) (todo : List (Nat × Byte)) (next : Nat × Byte)
    (after : List (Nat × Byte)) : Prop :=
  ∃ done, todo = done ++ next :: after ∧ m.burnt done ∧ m.read next.1 ≠ next.2

/-- The cell holds a bit that its target has not: no burn can make it read its target (R27). -/
def Memory.stray (m : Memory) (x : Nat × Byte) : Prop := m.read x.1 &&& ~~~x.2 ≠ 0

/-- The readback after one more pulse at the first byte of the run fails the run: the first byte that does not read
its target holds a stray bit, or is that byte itself after its fourth pulse (steps 2, 4 and 5 of R27). -/
def Memory.pulseFails (m : Memory) (pulses : Nat) (todo : List (Nat × Byte)) : Prop :=
  ∃ next after, m.stopsAt todo next after ∧ (m.stray next ∨ todo = next :: after ∧ 4 ≤ pulses + 1)

/-- The array after a burn pulse at a cell: R28's gate, then R26's gain of bits. -/
def State.arrayAfterPulse (s : State) (offset : Nat) (taken : Byte) : Memory :=
  if s.burnEn then s.array.setBits offset taken else s.array

/-! ### What a replay applies -/

/-- The entries an index shows SEALED, in sequence order, with the actions their bodies carry (R83, R87). -/
def sealedEntries (m : Memory) (index : List IndexRecord) : List (Nat × List Action) :=
  index.filterMap fun r =>
    if r.state = .sealed then
      (readBody r.count (m.readRange r.bodyOffset r.bodyLength)).map (r.seq, ·)
    else none

/-- One action of entry `seq` at one key of the settings image (R83). -/
def KeyRecord.replayAction (r : KeyRecord) (seq : Nat) (a : Action) : KeyRecord :=
  if a.key = r.key then
    let valued :=
      match a.op with
      | .assign v => { r with active := v, provenance := seq }
      | .retire => { r with active := (KeyRecord.resetForm r.key).active, provenance := seq }
      | .keep => r
    if a.pin then { valued with pinned := true, pinSeq := some seq } else valued
  else r

/-- A key's record after the actions of these entries, in order, on its catalog default (R87). -/
def KeyRecord.replayed (key : Nat) (entries : List (Nat × List Action)) : KeyRecord :=
  entries.foldl (fun r e => e.2.foldl (fun r a => r.replayAction e.1 a) r) (KeyRecord.resetForm key)

end Sys2Proof.Machine
end

