-- ==== Sys2Proof/WellFormed.lean ====
section
/-! DEFINITION. When a command's operands fit the row of the table it stands for. A command that is not well
formed spells no event of the part; where its meaning still runs, it says what the part does with the bytes. -/

namespace Sys2Proof

/-- At most the argument bytes one record carries (R141). -/
def fitsRecord (args : Bytes) : Bool := args.length ≤ Config.maxArgs

/-- A value and guard argument whose lengths a length byte can declare. -/
def GuardArg.fits : GuardArg → Bool
  | .equals value => value.length ≤ 0xFF
  | _ => true

/-- The bytes are a frame that R169 neither discards nor ignores: a REQ, an ACK or a RESET taken whole. -/
def isTakenFrame (bytes : Bytes) (ending : FrameEnd) : Bool :=
  match ending, Machine.readFrame bytes with
  | .endMark, some (type, _) => type = .req || type = .ack || type = .reset
  | _, _ => false

/-- The low is of a class that PREAMBLE_OR_NOISE stands for: no start mark and no link loss (R168). -/
def isPreambleOrNoise (lowNs : Nat) : Bool :=
  let low := Machine.classifyLow lowNs
  low ≠ .startMark && low ≠ .linkLoss

/-- The command's operands fit its row. -/
def Instr.wf : Instr → Bool
  | .get _ _ _ => true
  | .getDetail _ _ _ => true
  | .catalogRead _ _ _ => true
  | .openSession _ _ => true
  | .closeSession _ _ => true
  | .watch _ _ _ _ => true
  | .unwatch _ _ _ _ => true
  | .noticeRead _ _ => true
  | .stageAssign _ _ key value guard =>
    value.length ≤ 0xFF && guard.fits && fitsRecord (Machine.stageAssignArgs key value guard)
  | .stageRetire _ _ key guard => guard.fits && fitsRecord (Machine.stageRetireArgs key guard)
  | .stagePin _ _ _ => true
  | .stageDrop _ _ _ => true
  | .stageClear _ _ => true
  | .stageList _ _ _ => true
  | .commit _ _ => true
  | .abort _ _ => true
  | .commitResult _ _ => true
  | .overlaySet _ _ key value lifetime bound =>
    fitsRecord (Machine.overlaySetArgs key value lifetime bound)
  | .overlayClear _ _ _ => true
  | .overlayList _ _ _ => true
  | .revoke _ _ _ => true
  | .rebuild _ _ => true
  | .journalStat _ _ => true
  | .journalRead _ _ _ _ => true
  | .entryRead _ _ _ => true
  | .linkStat _ _ _ => true
  | .unknownRequestKind _ _ kind args => (Machine.requestKind? kind).isNone && fitsRecord args
  | .heldJournalReadServed _ => true
  | .go _ => true
  | .take _ => true
  | .portReset _ => true
  | .unknownControlCode _ code => code ≠ 0xA1 && code ≠ 0xA2 && code ≠ 0xA7
  | .requestAreaWrite _ offset _ => 0x10 ≤ offset.toNat && offset.toNat ≤ 0x4F
  | .attnEnableWrite _ _ => true
  | .windowWriteIgnored _ offset _ =>
    offset ≠ 0x01 && offset ≠ 0x02 && !(0x10 ≤ offset.toNat && offset.toNat ≤ 0x4F)
  | .req _ _ args => fitsRecord args
  | .ack _ _ => true
  | .resetFrame _ _ => true
  | .frameDiscarded bytes ending => !isTakenFrame bytes ending
  | .turnaroundComplete => true
  | .frameSendComplete => true
  | .ackTimerExpiry => true
  | .linkLoss => true
  | .linkLineReleased => true
  | .deviceReset _ => true
  | .resetRelease _ _ => true
  | .startupReplayDone => true
  | .rebuildInstall => true
  | .timebaseTick => true
  | .overlayExpired => true
  | .burnPulse _ => true
  | .verify => true
  | .cellBitGain offset _ => offset.toNat < Config.arrayBytes
  | .startMark => true
  | .answerReady _ => true
  | .burnEnChange _ => true
  | .windowPointerSet _ _ => true
  | .windowByteRead _ => true
  | .preambleOrNoise lowNs => isPreambleOrNoise lowNs

end Sys2Proof
end

