-- ==== Sys2Proof/Certificates/Slice0/Obligations.lean ====
section
/-! DEFINITION. The statements about the part. A request's statement starts from `s.takes p r d` (Safety.lean): the
record is with the handler and no common test has answered it; `d.answers …` is `d` with that response ready.
`settle` is what follows every event: an idle link with something to send leaves IDLE, and the ATTN lines follow
their conditions (LinesFollow says so). -/

open Sys2Proof Sys2Proof.Machine

/-! ### The queue of commands, reset and the inputs -/

/-- The command at the front of the queue is run on the state with the queue's rest; an empty queue idles (the
model's own queue, log entry 2). -/
def Obligations.StepTakesFront : Prop :=
  (∀ (c : Instr) (s : State) (rest : List Instr), s.pending = c :: rest →
    step s = exec c { s with pending := rest }) ∧
  ∀ s : State, s.pending = [] → step s = .next s

/-- What a device reset leaves (R25, R43, R44, R46, R47, R57, R74, R78, R107, R120, R143, R167, R178, R179), with the
array as it left the factory (R26); and that state has every law the invariants below keep. Body top and slots used,
for which R46 waits for the replay, are the model's choice there (log entry 18) and not stated. -/
def Obligations.ResetState : Prop :=
  ((∀ r ∈ State.reset.table, ∃ c, descriptor? r.key = some c ∧ r = ⟨r.key, c.default, none, false, none, 0⟩) ∧
   State.reset.table.map KeyRecord.key = catalogKeys ∧
   State.reset.overlays = [] ∧ State.reset.array = [] ∧ State.reset.index = [] ∧
   State.reset.journal = .replaying ∧ State.reset.grant = .replay ∧ State.reset.replay = .startup ∧
   State.reset.burnQueue = [] ∧ State.reset.writer = .idle ∧ State.reset.active = none ∧
   State.reset.requester = none ∧ State.reset.portEnable = none ∧
   (∀ p, State.reset.staging.get p = ⟨.empty, []⟩ ∧
     (State.reset.session.get p).isOpen = false ∧ (State.reset.session.get p).generation = 0 ∧
     (State.reset.session.get p).watches = [] ∧ (State.reset.session.get p).queue = [] ∧
     (State.reset.session.get p).lastCommit = ⟨.none, none, none, 0⟩ ∧
     (State.reset.session.get p).lastRevoke = .none ∧
     (State.reset.handler.get p).state = .idle ∧ (State.reset.handler.get p).stored = none) ∧
   (∀ w, (State.reset.window.get w).state = .starting ∧ (State.reset.window.get w).attnEnable = 1 ∧
     (State.reset.window.get w).overrun = 0 ∧ (State.reset.window.get w).attn = false ∧
     (State.reset.window.get w).pointer = 0 ∧
     (State.reset.window.get w).requestArea = List.replicate 64 0 ∧
     (State.reset.window.get w).responseArea = List.replicate 64 0) ∧
   State.reset.link.state = .idle ∧ State.reset.link.pending = none ∧ State.reset.link.timer = .stopped ∧
   State.reset.link.crcErrors = 0 ∧ State.reset.link.collisions = 0 ∧ State.reset.link.losses = 0) ∧
  (State.reset.array.wf = true ∧ State.reset.journalLaw ∧ State.reset.queueLaw ∧ State.reset.tableLaw ∧
   State.reset.overlayLaw ∧ State.reset.startupLaw ∧ State.reset.stagingLaw ∧ State.reset.noticeLaw ∧
   State.reset.sessionLaw ∧ State.reset.attnLaw ∧ State.reset.linkLaw ∧ State.reset.areasSized ∧
   State.reset.counts.balanced)

/-- RESET asserted: every volatile block takes its reset value and the array keeps its cells, but for the byte under
burn, which may take some of the bits its pulse was setting (R25, R29, R46, R73, R118, R140, R167, R179). RESET
released: the straps are read and the start-up replay begins past its DEFAULTS step (R77 to R79, R157). BURN_EN
follows its pin (R28). A defective cell gains bits, and no other cell changes (R26). An offset beyond the array
names no cell, and a release while RESET is not asserted changes nothing (log entry 3). Body top and slots used, which
R46 leaves to the replay, stand at 0 from the reset on by the model's choice (log entry 18). While RESET is asserted
the Replay Engine does nothing and no other command changes the part; that the engine then reads IDLE, R77 saying only
that it is held, and that no such command is taken, is the model's choice (log entry 15). The pulse that a reset cuts
short reaches its cell only with BURN_EN high at the reset, where R28 samples it at the pulse's start (log entry 5).
What the outside will do with CS outlasts the reset (log entry 8); an SPI transaction open at the reset does not, by the
model's choice (log entry 22). -/
def Obligations.DeviceEvents : Prop :=
  (∀ (cut : Byte) (s : State), s.array.wf = true → ∃ m : Memory,
     exec (.deviceReset cut) s = .next
       { State.reset with
         array := m
         window :=
           ⟨{ Window.reset s.window.window0.strap with csRises := s.window.window0.csRises },
            { Window.reset s.window.window1.strap with csRises := s.window.window1.csRises }⟩
         burnEn := s.burnEn, replay := .idle, working := none, resetAsserted := true, pauses := s.pauses
         pending := s.pending } ∧
     ∀ a, m.read a =
       match s.underBurn with
       | some (offset, target) =>
         if a = offset ∧ s.burnEn = true ∧ offset < 0x3000 then s.array.read a ||| (cut &&& target)
         else s.array.read a
       | none => s.array.read a) ∧
  ((∀ (x y : StrapPin) (s : State), s.resetAsserted = true →
     exec (.resetRelease x y) s = .next
       { s with
         window := ⟨{ s.window.window0 with strap := x }, { s.window.window1 with strap := y }⟩
         replay := .startup, requester := none, working := some WorkingResult.defaults
         resetAsserted := false }) ∧
   (∀ (x y : StrapPin) (s : State), s.resetAsserted = false → exec (.resetRelease x y) s = .next s) ∧
   (∀ (level : Bool) (s : State), exec (.burnEnChange level) s = .next { s with burnEn := level }) ∧
   (∀ (offset : Word16) (bits : Byte) (s : State), s.array.wf = true → offset.toNat < 0x3000 →
     ∃ m : Memory, exec (.cellBitGain offset bits) s = .next { s with array := m } ∧
       ∀ a, m.read a = if a = offset.toNat then s.array.read a ||| bits else s.array.read a) ∧
   (∀ (offset : Word16) (bits : Byte) (s : State), 0x3000 ≤ offset.toNat →
     exec (.cellBitGain offset bits) s = .fault (.noSuchCell offset.toNat)) ∧
   ∀ (c : Instr) (s : State), s.resetAsserted = true →
     (∀ cut, c ≠ .deviceReset cut) → (∀ x y, c ≠ .resetRelease x y) → (∀ level, c ≠ .burnEnChange level) →
     (∀ offset bits, c ≠ .cellBitGain offset bits) → exec c s = .next s)

/-! ### Laws that every step keeps -/

/-- No step clears a bit of the Journal Array (R26), and the array keeps its canonical form. -/
def Obligations.ArrayOnlyGains : Prop :=
  ∀ s t : State, s.array.wf = true → step s = .next t →
    t.array.wf = true ∧ ∀ offset, s.array.read offset &&& ~~~t.array.read offset = 0

/-- A cell changes by a pulse, a pulse that a reset cuts short, or a defective cell's gain alone (R26); the persisted
layers change only where a patch is applied, where a replay installs and at a device reset (R15, R22, R24, R25). -/
def Obligations.ChangedOnlyBy : Prop :=
  (∀ (c : Instr) (s t : State), exec c s = .next t → t.array ≠ s.array →
     (∃ taken, c = .burnPulse taken) ∨ (∃ cut, c = .deviceReset cut) ∨
       ∃ offset bits, c = .cellBitGain offset bits) ∧
  (∀ (c : Instr) (s t : State), exec c s = .next t → t.table ≠ s.table →
     (∃ taken, c = .burnPulse taken) ∨ c = .verify ∨
       c = .startupReplayDone ∨ c = .rebuildInstall ∨
       ∃ cut, c = .deviceReset cut)

/-- The directory, index, grant and plan laws of the journal (R31, R37, R44, R61). -/
def Obligations.JournalLawKept : Prop :=
  ∀ s t : State, s.journalLaw → s.tableLaw → step s = .next t → t.journalLaw

/-- At most one job per port, queued or held (R57). -/
def Obligations.QueueLawKept : Prop :=
  ∀ s t : State, s.queueLaw → step s = .next t → t.queueLaw

/-- One lawful record per catalog key (R15, section 1.3). -/
def Obligations.TableLawKept : Prop :=
  ∀ s t : State, s.tableLaw → step s = .next t → t.tableLaw

/-- Until the start-up replay installs, the part holds nothing of any host (R78, R147). That body top and slots used
read 0 there is the model's choice (log entry 18). -/
def Obligations.StartupLawKept : Prop :=
  ∀ s t : State, s.startupLaw → step s = .next t → t.startupLaw

/-- The laws of the Overlay Table and of pins (R16, R107). -/
def Obligations.OverlayLawKept : Prop :=
  ∀ s t : State, s.overlayLaw → s.tableLaw → s.startupLaw → step s = .next t → t.overlayLaw

/-- The law of the Staging Lists (R47). -/
def Obligations.StagingLawKept : Prop :=
  ∀ s t : State, s.stagingLaw → step s = .next t → t.stagingLaw

/-- The law of the notice queues (R134). -/
def Obligations.NoticeLawKept : Prop :=
  ∀ s t : State, s.noticeLaw → step s = .next t → t.noticeLaw

/-- A CLOSED session keeps nothing, and a set notice flag names the open session that claimed it (R57, R77, R124,
R125). -/
def Obligations.SessionLawKept : Prop :=
  ∀ s t : State, s.sessionLaw → s.startupLaw → step s = .next t → t.sessionLaw

/-- After every step each ATTN line follows its conditions, an idle link has nothing to send, the bits of a frame stand
in RX alone, and the areas and the link buffer keep their sizes (R160, R165, R168, R170). What follows every event, and
so ends every next state below, is this and no more: an IDLE link with a pending answer or a NOTE ready to send enters
TURN (R170, R175), and each ATTN line takes the level of its two conditions (R165). -/
def Obligations.LinesFollow : Prop :=
  (∀ s t : State, s.attnLaw → s.linkLaw → s.areasSized → step s = .next t →
    t.attnLaw ∧ t.linkLaw ∧ t.areasSized) ∧
  ∀ s : State,
    let u := s.session.get .port2
    let sends : Bool :=
      s.link.pending ≠ none ∨
        u.isOpen = true ∧ u.queue ≠ [] ∧
          (u.headSent = false ∨ s.link.timer = .expired ∧ s.link.sendCount < 4)
    let attn (x : Window) (v : Session) : Bool :=
      x.attnEnable.getLsbD 0 = true ∧ v.queue ≠ [] ∨ x.attnEnable.getLsbD 1 = true ∧ x.state = .answered
    s.settle =
      { s with
        link := if s.link.state = .idle ∧ sends = true then { s.link with state := .turn } else s.link
        window :=
          ⟨{ s.window.window0 with attn := attn s.window.window0 (s.session.get .port0) },
           { s.window.window1 with attn := attn s.window.window1 (s.session.get .port1) }⟩ }

/-! ### Reading what hosts and partners send, and what the array holds -/

/-- The record of each request command reads as that request, with every operand (R141, R182); and a record that reads
as a request at all is of that request's kind with exactly that kind's arguments, at most 60 bytes, argLength their
number, every code among them defined, and in a STAGE_ASSIGN the two declared lengths at most 51 together. Any other
record is malformed: it reads as none (R148, R180, R182). The fields: numbers big-endian, a value after its length, the
flags and the guards by their codes, an EQUALS with its value, and a record its kind, tag, argLength and arguments (R180,
R182). -/
def Obligations.RequestRecordsRead : Prop :=
  ((∀ n : Nat, bytesOfNat 2 n = [BitVec.ofNat 8 (n / 256), BitVec.ofNat 8 n] ∧
      bytesOfNat 4 n =
        [BitVec.ofNat 8 (n / 0x1000000), BitVec.ofNat 8 (n / 0x10000), BitVec.ofNat 8 (n / 256),
          BitVec.ofNat 8 n]) ∧
   (∀ key : Word16, bytes16 key = bytesOfNat 2 key.toNat) ∧
   (∀ value : Bytes, valueField value = BitVec.ofNat 8 value.length :: value ∧
     guardField (.equals value) = 0x01 :: valueField value) ∧
   guardField .none = [0x00] ∧ guardField .untouched = [0x02] ∧
   flagByte false = 0x00 ∧ flagByte true = 0x01 ∧
   ∀ r : Record, r.bytes = r.kind :: r.tag :: BitVec.ofNat 8 r.argLength :: r.args) ∧
  (∀ (tag : Byte) (key first last lifetime offset seq : Word16) (position index length : Byte)
    (clear bound : Bool) (value : Bytes) (guard : GuardArg),
    (RequestKind.get.record tag (bytes16 key)).request? = some (.get key.toNat) ∧
    (RequestKind.getDetail.record tag (bytes16 key)).request? = some (.getDetail key.toNat) ∧
    (RequestKind.catalogRead.record tag [position]).request? = some (.catalogRead position.toNat) ∧
    (RequestKind.openSession.record tag []).request? = some .openSession ∧
    (RequestKind.closeSession.record tag []).request? = some .closeSession ∧
    (RequestKind.watch.record tag (bytes16 first ++ bytes16 last)).request? =
      some (.watch first.toNat last.toNat) ∧
    (RequestKind.unwatch.record tag (bytes16 first ++ bytes16 last)).request? =
      some (.unwatch first.toNat last.toNat) ∧
    (RequestKind.noticeRead.record tag []).request? = some .noticeRead ∧
    ((Instr.stageAssign .port0 tag key value guard).wf = true →
      value.length + (guardOf guard).length ≤ 51 →
      (RequestKind.stageAssign.record tag (stageAssignArgs key value guard)).request? =
        some (.stageAssign key.toNat value (guardOf guard))) ∧
    ((Instr.stageRetire .port0 tag key guard).wf = true →
      (RequestKind.stageRetire.record tag (stageRetireArgs key guard)).request? =
        some (.stageRetire key.toNat (guardOf guard))) ∧
    (RequestKind.stagePin.record tag (bytes16 key)).request? = some (.stagePin key.toNat) ∧
    (RequestKind.stageDrop.record tag (bytes16 key)).request? = some (.stageDrop key.toNat) ∧
    (RequestKind.stageClear.record tag []).request? = some .stageClear ∧
    (RequestKind.stageList.record tag [index]).request? = some (.stageList index.toNat) ∧
    (RequestKind.commit.record tag []).request? = some .commit ∧
    (RequestKind.abort.record tag []).request? = some .abort ∧
    (RequestKind.commitResult.record tag []).request? = some .commitResult ∧
    ((Instr.overlaySet .port0 tag key value lifetime bound).wf = true →
      (RequestKind.overlaySet.record tag (overlaySetArgs key value lifetime bound)).request? =
        some (.overlaySet key.toNat value lifetime.toNat bound)) ∧
    (RequestKind.overlayClear.record tag (bytes16 key)).request? = some (.overlayClear key.toNat) ∧
    (RequestKind.overlayList.record tag [index]).request? = some (.overlayList index.toNat) ∧
    (RequestKind.revoke.record tag (bytes16 seq)).request? = some (.revoke seq.toNat) ∧
    (RequestKind.rebuild.record tag []).request? = some .rebuild ∧
    (RequestKind.journalStat.record tag []).request? = some .journalStat ∧
    (RequestKind.journalRead.record tag (bytes16 offset ++ [length])).request? =
      some (.journalRead offset.toNat length.toNat) ∧
    (RequestKind.entryRead.record tag (bytes16 seq)).request? = some (.entryRead seq.toNat) ∧
    (RequestKind.linkStat.record tag [flagByte clear]).request? = some (.linkStat clear)) ∧
  ∀ (r : Record) (q : Request), r.request? = some q →
    r.argLength = r.args.length ∧ r.args.length ≤ 60 ∧
    ∃ (key second : Word16) (b : Byte) (flag : Bool) (value : Bytes) (guard : GuardArg),
      value.length ≤ 255 ∧ (guardOf guard).length ≤ 255 ∧
      (r.kind = 0x30 → value.length + (guardOf guard).length ≤ 51) ∧
      (q, r.kind, r.args) ∈
        ([(.get key.toNat, 0x01, bytes16 key), (.getDetail key.toNat, 0x02, bytes16 key),
          (.catalogRead b.toNat, 0x03, [b]), (.openSession, 0x10, []), (.closeSession, 0x11, []),
          (.watch key.toNat second.toNat, 0x20, bytes16 key ++ bytes16 second),
          (.unwatch key.toNat second.toNat, 0x21, bytes16 key ++ bytes16 second),
          (.noticeRead, 0x22, []),
          (.stageAssign key.toNat value (guardOf guard), 0x30,
            bytes16 key ++ valueField value ++ guardField guard),
          (.stageRetire key.toNat (guardOf guard), 0x31, bytes16 key ++ guardField guard),
          (.stagePin key.toNat, 0x32, bytes16 key), (.stageDrop key.toNat, 0x33, bytes16 key),
          (.stageClear, 0x34, []), (.stageList b.toNat, 0x35, [b]), (.commit, 0x36, []), (.abort, 0x37, []),
          (.commitResult, 0x38, []),
          (.overlaySet key.toNat value second.toNat flag, 0x40,
            bytes16 key ++ valueField value ++ bytes16 second ++ [flagByte flag]),
          (.overlayClear key.toNat, 0x41, bytes16 key), (.overlayList b.toNat, 0x42, [b]),
          (.revoke key.toNat, 0x51, bytes16 key), (.rebuild, 0x52, []), (.journalStat, 0x53, []),
          (.journalRead key.toNat b.toNat, 0x54, bytes16 key ++ [b]),
          (.entryRead key.toNat, 0x55, bytes16 key), (.linkStat flag, 0x60, [flagByte flag])] :
          List (Request × Byte × Bytes))

/-- A frame of at most 60 payload bytes, none in an ACK or a RESET, reads back as itself (R169, R183); and bytes that read
as a frame are the header of that type with its tag, code and length, the payload, of at most 60 bytes and of none in an
ACK or a RESET, and their CRC-32, so that any other bytes are discarded (R36, R169). Its bits: a byte
goes most significant bit first and reads back so; the low of each symbol is taken as that symbol; the frame lasts
86 + 8n bit times of 8 µs; and a frame loaded into the link buffer is what the part sends in TX (R168, R169). The codes
of the frame types (R169). -/
def Obligations.FramesRead : Prop :=
  [FrameType.req, .rsp, .note, .ack, .reset, .busy].map FrameType.code =
    [0x01, 0x02, 0x03, 0x04, 0x05, 0x06] ∧
  (∀ (type : FrameType) (tag code : Byte) (payload : Bytes), payload.length ≤ 60 →
    (type = .ack ∨ type = .reset → payload = []) →
    readFrame (frameBytes type tag code payload) = some (type, tag, code, payload)) ∧
  (∀ (bytes : Bytes) (type : FrameType) (tag code : Byte) (payload : Bytes),
    readFrame bytes = some (type, tag, code, payload) →
    let head := type.code :: tag :: code :: BitVec.ofNat 8 payload.length :: payload
    bytes = head ++ bytesOfNat 4 (crc32 head).toNat ∧ bytes = frameBytes type tag code payload ∧
    payload.length ≤ 60 ∧ (type = .ack ∨ type = .reset → payload = [])) ∧
  ((∀ b : Byte, bitsOfByte b = (List.range 8).map fun i => b.getLsbD (7 - i)) ∧
   (∀ bytes : Bytes, bytesOfBits (bytes.flatMap bitsOfByte) = bytes) ∧
   (∀ value : Bool, classifyLow (Symbol.bit value).lowNs = if value then .bit1 else .bit0) ∧
   classifyLow Symbol.endMark.lowNs = .endMark ∧ classifyLow Symbol.startMark.lowNs = .startMark) ∧
  (∀ (type : FrameType) (tag code : Byte) (payload buffer : Bytes) (l : Link), payload.length ≤ 60 →
    let symbols := frameSymbols (frameBytes type tag code payload)
    symbols =
      (List.range 16).map (fun i => Symbol.bit (i % 2 = 1)) ++ [Symbol.startMark] ++
        ((frameBytes type tag code payload).flatMap bitsOfByte).map Symbol.bit ++ [Symbol.endMark] ∧
    (symbols.map fun x => x.lowNs + x.releasedNs).sum = (86 + 8 * payload.length) * 8000 ∧
    (l.state = .tx → l.buffer = loadBuffer buffer (frameBytes type tag code payload) → l.sends = symbols))

/-- The body the writer burns for a list reads back, at a replay, as the list's actions without their guards (R35, R82,
R181); and a body that reads at all is the body of the actions it reads as: 1 to 24 of them, as many as the slot and
the body count, on distinct catalog keys, every ASSIGN value of its key's form and range (checks 3 to 6 of R82). The
body's bytes: the count, then for each action its op with 80h added for the pin flag, its key, and its value's length
and bytes, none but in an ASSIGN (R35, R181). -/
def Obligations.BodiesRead : Prop :=
  (∀ actions : List Action, bodyBytes actions =
    BitVec.ofNat 8 actions.length :: actions.flatMap fun a =>
      let op : Nat × Bytes := match a.op with
        | .assign v => (0x01, v)
        | .retire => (0x02, [])
        | .keep => (0x03, [])
      BitVec.ofNat 8 (op.1 + if a.pin then 0x80 else 0) ::
        [BitVec.ofNat 8 (a.key / 256), BitVec.ofNat 8 a.key, BitVec.ofNat 8 op.2.length] ++ op.2) ∧
  (∀ actions : List Action, 1 ≤ actions.length → actions.length ≤ 24 → (actions.map Action.key).Nodup →
    (∀ a ∈ actions, ∃ c, descriptor? a.key = some c ∧
      ∀ v, a.op = .assign v → c.hasForm v = true ∧ c.inRange v = true) →
    readBody actions.length (bodyBytes actions) =
      some (actions.map fun a => { a with guard := .none })) ∧
  (∀ (count : Nat) (body : Bytes) (actions : List Action), readBody count body = some actions →
    1 ≤ count ∧ count ≤ 24 ∧ actions.length = count ∧ body = bodyBytes actions ∧
    (actions.map Action.key).Nodup ∧
    ∀ a ∈ actions, a.guard = .none ∧ ∃ c, descriptor? a.key = some c ∧
      ∀ v, a.op = .assign v → c.hasForm v = true ∧ c.inRange v = true)

/-- The CRC-32 has its worked values, and two strings of bytes that differ in one byte, and so two that differ in one
bit, have different codes (R36). -/
def Obligations.CrcTellsBytes : Prop :=
  (crc32 [0x01, 0x02, 0x00, 0x05, 0x00] = 0x2C3CE263#32 ∧
   crc32 [0x31, 0x32, 0x33, 0x34, 0x35, 0x36, 0x37, 0x38, 0x39] = 0xCBF43926#32 ∧
   crc32 [] = 0x00000000#32 ∧ crc32 [0x00] = 0xD202EF8D#32) ∧
  (∀ (before after : Bytes) (x y : Byte), x ≠ y →
     crc32 (before ++ x :: after) ≠ crc32 (before ++ y :: after))

/-! ### Replay -/

/-- The end of the directory (R80): every slot before it is well formed; the slot it ends at is malformed and counted,
or reads a marker of 00h and is not; or all 256 are used. Body top after HIGHWATER (R85): above every byte that counts
and above every recorded range that lies wholly below directory bottom; and 0, or one past one of those. Every byte
below directory bottom that holds a bit counts; that those of a slot that ended the directory under a blank marker count
too is what R85 says, chosen against row 2 of R106 (log entry 17). -/
def Obligations.DirectoryAndHighwater : Prop :=
  (∀ (m : Memory) (used : Nat) (malformed : Bool), directoryEnd m 0 256 = (used, malformed) →
     used ≤ 256 ∧
     (malformed = false →
       (∀ n < used, (readSlot m n).marker ≠ 0 ∧ (readSlot m n).wellFormed n = true) ∧
       (used = 256 ∨ (readSlot m used).marker = 0)) ∧
     (malformed = true → 1 ≤ used ∧
       (∀ n < used - 1, (readSlot m n).marker ≠ 0 ∧ (readSlot m n).wellFormed n = true) ∧
       (readSlot m (used - 1)).marker ≠ 0 ∧ (readSlot m (used - 1)).wellFormed (used - 1) = false)) ∧
  (∀ (m : Memory) (used : Nat) (index : List IndexRecord), m.wf = true →
     let bottom := 0x3000 - 16 * used
     let top := highwater m used index
     let counts (a : Nat) : Prop := a < bottom ∧ m.read a ≠ 0
     let recorded (r : IndexRecord) : Prop :=
       r ∈ index ∧ 1 ≤ r.bodyLength ∧ r.bodyOffset + r.bodyLength ≤ bottom
     (∀ a, counts a → a < top) ∧
     (∀ r, recorded r → r.bodyOffset + r.bodyLength ≤ top) ∧
     (top = 0 ∨ (∃ a, counts a ∧ top = a + 1) ∨ ∃ r, recorded r ∧ top = r.bodyOffset + r.bodyLength))

/-- What a run makes of any array (R80 to R82, R84, R88): one record per used slot, numbered 1 upward with the fields its
bytes hold; total the number of used slots and the sum of the five classes; body top at or below directory bottom.
Each slot's class is that of the first test it meets (R81), CORRUPT for the malformed end slot (R80) and where a check
of R82 fails, the last of them against the pins of the SEALED entries before it; applied exactly the SEALED ones. -/
def Obligations.ReplayAccounts : Prop :=
  ∀ m : Memory,
    let run := replayRun m WorkingResult.defaults
    (run.slotsUsed ≤ 256 ∧ run.counts.total = run.slotsUsed ∧ run.counts.balanced ∧
     run.bodyTop ≤ 0x3000 - 16 * run.slotsUsed ∧
     run.index.map IndexRecord.seq = (List.range run.slotsUsed).map (· + 1) ∧
     (∀ r ∈ run.index,
       (r.applied = true ↔ r.state = .sealed) ∧
       r.origin = (readSlot m (r.seq - 1)).origin ∧ r.bodyOffset = (readSlot m (r.seq - 1)).bodyOffset ∧
       r.bodyLength = (readSlot m (r.seq - 1)).bodyLength ∧ r.count = (readSlot m (r.seq - 1)).count) ∧
     run.counts.applied = run.index.countP (·.state = .sealed) ∧
     run.counts.revoked = run.index.countP (·.state = .revoked) ∧
     run.counts.void = run.index.countP (·.state = .void) ∧
     run.counts.torn = run.index.countP (·.state = .torn) ∧
     run.counts.corrupt = run.index.countP (·.state = .corrupt)) ∧
    ∀ (n : Nat) (r : IndexRecord), run.index[n]? = some r →
      let f := readSlot m n
      let body := m.readRange f.bodyOffset f.bodyLength
      let earlier := sealedEntries m (run.index.take n)
      r.state =
        if f.wellFormed n = false then .corrupt
        else if f.sealByte ≠ 0xA5 then .torn
        else if f.kind = 0xFF then .void
        else if f.revokeByte ≠ 0 then .revoked
        else if 0x3000 - 16 * run.slotsUsed < f.bodyOffset + f.bodyLength ∨ f.bodyLength < 5 ∨
            512 < f.bodyLength then .corrupt
        else if bytesOfNat 4 (crc32 body).toNat ≠ f.crc then .corrupt
        else
          match readBody f.count body with
          | none => .corrupt
          | some actions =>
            if ∃ a ∈ actions, ∃ e ∈ earlier, ∃ x ∈ e.2, x.pin = true ∧ x.key = a.key then .corrupt
            else .sealed

/-- The law of the start-up replay (R87): after it every key's active value, pinned state and provenance are those of
the SEALED entries' actions, in sequence order, on the catalog default, and no key has a pending value. The entries are
read from the array as it stands at the install (log entry 14); ReplayAccounts says which are SEALED. -/
def Obligations.StartupRebuildsTable : Prop :=
  ∀ s t : State, s.startupLaw → s.tableLaw → s.resetAsserted = false → s.replay = .startup →
    exec .startupReplayDone s = .next t →
    t.table = catalogKeys.map fun key => KeyRecord.replayed key (sealedEntries t.array t.index)

/-- The rest of the start-up install (R12, R13, R43, R44, R87, R161, R179): figures and counts, the latched own keys,
the ports, and the array free. OPEN or FULL follows the space rule alone, whatever ended the directory: the reading of
R106's row on a non-blank marker that log entry 17 declares. The figures are those of the array as it stands at the
install (log entry 14). Without a start-up replay there is none to end (log entry 3). -/
def Obligations.StartupInstalls : Prop :=
  (∀ s : State, s.startupLaw → s.tableLaw → s.resetAsserted = false → s.replay = .startup →
    let run := replayRun s.array WorkingResult.defaults
    ∃ table : List KeyRecord,
      let installed : State :=
        { s with
          table := table, index := run.index, slotsUsed := run.slotsUsed, bodyTop := run.bodyTop
          counts := run.counts, replay := .idle, requester := none, working := none, grant := .free
          journal :=
            if 0x3000 - 16 * run.slotsUsed - run.bodyTop < 21 ∨ run.slotsUsed = 256 then .full
            else .opened }
      let enable := installed.activeNumber keyPortEnable
      let window (x : Window) (disabled executing : Bool) : Window :=
        if x.state = .starting then
          { x with
            state := if disabled then .disabled else if executing then .submitted else .idle }
        else x
      exec .startupReplayDone s = .next
        { installed with
          portEnable := some enable
          window :=
            ⟨window s.window.window0 false ((s.handler.get .port0).state = HandlerState.executing),
             window s.window.window1 (!enable.testBit 1) ((s.handler.get .port1).state = HandlerState.executing)⟩
          link :=
            if enable.testBit 2 then
              { s.link with ackWindow := some (installed.activeNumber keyLinkAckWindow) }
            else
              { s.link with
                ackWindow := some (installed.activeNumber keyLinkAckWindow)
                state := .off, rxBits := [], pending := none, sending := none } }.settle) ∧
  ∀ s : State, s.resetAsserted = false → s.replay ≠ .startup → exec .startupReplayDone s = .next s.settle

/-- The install of a REBUILD run (R15, R24, R91, R92, R117): the table by the rebuild form, the overlays on pinned keys
gone, figures and counts, REBUILT to each open session that watches, then REBUILD_DONE to the requesting session;
and the array freed, for the job at the head of the queue where one waits (R44; ArbiterGrants says to whom it goes).
OPEN or FULL follows the space rule alone, the reading of R106 that log entry 17 declares; the run's figures are those
of the array as it stands at the install (log entry 14). With no run that holds the array the command changes nothing
(the model's choice, log entry 3). -/
def Obligations.RebuildInstalls : Prop :=
  (∀ s : State, s.resetAsserted = false → s.replay = .rebuilding →
    let run := replayRun s.array (s.working.getD WorkingResult.defaults)
    let table := s.table.map fun r =>
      match run.keys.find? (·.key = r.key) with
      | none => r
      | some k =>
        if (descriptor? r.key).map Descriptor.applyMode = some .deferred then
          { r with
            pending := if k.value = r.active then none else some k.value
            pinned := k.pinned, pinSeq := k.pinSeq, provenance := k.provenance }
        else
          { r with
            active := k.value, pending := none
            pinned := k.pinned, pinSeq := k.pinSeq, provenance := k.provenance }
    let told (q : Requester) (u : Session) : Session :=
      if u.isOpen = true ∧ u.watches ≠ [] then u.arrive (.rebuilt q.port) else u
    let installed : State :=
      { s with
        table := table
        overlays := s.overlays.filter fun o => !table.any fun r => r.key = o.key && r.pinned
        index := run.index, slotsUsed := run.slotsUsed, bodyTop := run.bodyTop, counts := run.counts
        journal :=
          if 0x3000 - 16 * run.slotsUsed - run.bodyTop < 21 ∨ run.slotsUsed = 256 then .full else .opened
        replay := .idle, requester := none, working := none, grant := .free
        session :=
          match s.requester with
          | none => s.session
          | some q => s.session.map fun p u =>
              if p = q.port ∧ q.notice = true then (told q u).arrive (.rebuildDone run.counts)
              else told q u }
    exec .rebuildInstall s = .next installed.arbitrate.settle ∧
    (s.burnQueue = [] → exec .rebuildInstall s = .next installed.settle) ∧
    ∀ (j : Job) (rest : List Job), s.burnQueue = j :: rest →
      let started := ({ installed with burnQueue := rest, grant := .writer }).startJob j
      started.writer ≠ .idle → exec .rebuildInstall s = .next started.settle) ∧
  ∀ s : State, s.resetAsserted = false → s.replay ≠ .rebuilding → exec .rebuildInstall s = .next s.settle

/-! ### The Journal Writer -/

/-- A pulse at the byte under burn (R26 to R28): only with BURN_EN high does it reach the cell, which gains bits and
loses none. Where the readback still lacks bits after fewer than four pulses, the byte waits for the next; where it
equals its target, the writer goes on to the next byte that does not. -/
def Obligations.BurnPulseGoesOn : Prop :=
  ∀ (s : State) (a : ActiveJob) (offset : Nat) (target : Byte) (rest : List (Nat × Byte)) (taken : Byte),
    s.resetAsserted = false → s.grant = .writer → s.active = some a → a.moment = .none →
    a.todo = (offset, target) :: rest →
    s.writer ∈ [WriterState.body, .entry, .seal, .voiding, .revoking] →
    let m := s.arrayAfterPulse offset taken
    (s.array.wf = true → ∀ x, m.read x =
      if x = offset ∧ s.burnEn = true ∧ offset < 0x3000 then s.array.read x ||| taken
      else s.array.read x) ∧
    (m.read offset ≠ target → ¬m.stray (offset, target) → a.pulses + 1 < 4 →
      exec (.burnPulse taken) s = .next
        { s with array := m, active := some { a with pulses := a.pulses + 1 } }.settle) ∧
    ∀ (next : Nat × Byte) (after : List (Nat × Byte)), m.read offset = target →
      m.stopsAt rest next after → ¬m.stray next →
      exec (.burnPulse taken) s = .next
        { s with array := m, active := some { a with todo := next :: after, pulses := 0 } }.settle

/-- The end of BODY (R30, R64, R156): with its last byte, or with a byte that fails (the byte under burn, or a later one
that holds a stray bit), body top moves past the planned range. There another event may fall: the writer waits where
the part pauses, and the next BURN_PULSE goes on (log entry 6). Then the slot is begun (R31, R38, R65, R69) with a TORN
record, and its bytes are burned, as a PATCH, or as a whole VOID where a byte failed. The burn begins at the first byte
that does not read its target; a stray bit there voids the slot, or fails the void (R70, R71). -/
def Obligations.BodyEnds : Prop :=
  (∀ (s : State) (a : ActiveJob) (offset : Nat) (target : Byte) (rest : List (Nat × Byte)) (taken : Byte),
    s.resetAsserted = false → s.grant = .writer → s.writer = .body → s.active = some a →
    a.moment = .none → a.todo = (offset, target) :: rest →
    let m := s.arrayAfterPulse offset taken
    let ended : State := { s with array := m, bodyTop := a.bodyOffset + a.bodyLength }
    let outcome (whole : Bool) : State :=
      if s.pauses = true then
        { ended with active := some { a with todo := [], pulses := 0, moment := .bodyEnded whole } }
      else (ended.leaveBody a whole).arbitrate
    (m.burnt a.todo → exec (.burnPulse taken) s = .next (outcome true).settle) ∧
    (m.pulseFails a.pulses a.todo → exec (.burnPulse taken) s = .next (outcome false).settle)) ∧
  ((∀ (s : State) (a : ActiveJob) (whole : Bool) (taken : Byte),
    s.resetAsserted = false → s.active = some a → a.moment = .bodyEnded whole →
    exec (.burnPulse taken) s = .next (s.leaveBody a whole).arbitrate.settle) ∧
   ∀ (s : State) (a : ActiveJob),
    let begun : State :=
      { s with
        slotsUsed := s.slotsUsed + 1
        index := s.index ++
          [⟨a.slot + 1, .torn, a.job.port.number, a.bodyOffset, a.bodyLength, a.count, false⟩] }
    let planned : Bytes :=
      bytesOfNat 2 (a.slot + 1) ++ [BitVec.ofNat 8 a.job.port.number, BitVec.ofNat 8 a.count] ++
        bytesOfNat 2 a.bodyOffset ++ bytesOfNat 2 a.bodyLength
    let entry := burnsAt (slotOffset a.slot) ([0xD5, 0x3C] ++ planned ++ bytesOfNat 4 a.crc.toNat)
    let void := burnsAt (slotOffset a.slot) ([0xD5, 0xFF] ++ planned ++ [0, 0, 0, 0] ++ [0xA5])
    (s.array.burnt entry → s.leaveBody a true = begun.burning .verify a [] 0) ∧
    (s.array.burnt void → s.leaveBody a false =
      (begun.setEntryState (a.slot + 1) .void).endCommit a.job .burnFault (some (a.slot + 1)) none) ∧
    ∀ (next : Nat × Byte) (after : List (Nat × Byte)),
      (s.array.stopsAt entry next after →
        (¬s.array.stray next → s.leaveBody a true = begun.burning .entry a (next :: after) 0) ∧
        (s.array.stray next → s.leaveBody a true = begun.voidSlot a)) ∧
      (s.array.stopsAt void next after →
        (¬s.array.stray next → s.leaveBody a false = begun.burning .voiding a (next :: after) 0) ∧
        (s.array.stray next → s.leaveBody a false =
          ({ begun with journal := .faulted }).endCommit a.job .burnFault (some (a.slot + 1)) none)))

/-- ENTRY's last byte leads to VERIFY (R65); VERIFY leads to the burn of the seal where the body's code agrees, and to
the void of the slot where it does not (R66); so do a failed byte of ENTRY, the byte under burn or a later one, and a
failed seal (R70, log entry 12). The void burns kind FFh, then seal A5h, from the first of the two that does not read
its target. -/
def Obligations.SlotGoesOn : Prop :=
  (∀ (s : State) (a : ActiveJob), s.resetAsserted = false → s.grant = .writer → s.active = some a →
    let last : Nat × Byte := (slotOffset a.slot + 14, 0xA5)
    (s.writer = .verify →
      (crc32 (s.array.readRange a.bodyOffset a.bodyLength) = a.crc → s.array.read last.1 ≠ 0xA5 →
        ¬s.array.stray last → exec .verify s = .next (s.burning .seal a [last] 0).settle) ∧
      (crc32 (s.array.readRange a.bodyOffset a.bodyLength) ≠ a.crc ∨ s.array.stray last →
        exec .verify s = .next (s.voidSlot a).arbitrate.settle)) ∧
    ∀ (offset : Nat) (target : Byte) (rest : List (Nat × Byte)) (taken : Byte),
      a.moment = .none → a.todo = (offset, target) :: rest →
      let m := s.arrayAfterPulse offset taken
      (s.writer = .entry → m.burnt a.todo →
        exec (.burnPulse taken) s = .next (({ s with array := m }).burning .verify a [] 0).settle) ∧
      (s.writer = .entry ∨ s.writer = .seal → m.pulseFails a.pulses a.todo →
        exec (.burnPulse taken) s = .next (({ s with array := m }).voidSlot a).arbitrate.settle)) ∧
  ∀ (s : State) (a : ActiveJob),
    let void : List (Nat × Byte) := [(slotOffset a.slot + 1, 0xFF), (slotOffset a.slot + 14, 0xA5)]
    (s.array.burnt void → s.voidSlot a =
      (s.setEntryState (a.slot + 1) .void).endCommit a.job .burnFault (some (a.slot + 1)) none) ∧
    ∀ (next : Nat × Byte) (after : List (Nat × Byte)), s.array.stopsAt void next after →
      (¬s.array.stray next → s.voidSlot a = s.burning .voiding a (next :: after) 0) ∧
      (s.array.stray next → s.voidSlot a =
        ({ s with journal := .faulted }).endCommit a.job .burnFault (some (a.slot + 1)) none)

/-- The end of a commit job (R43, R72, R74) and of a revoke job (R43, R99, R100). -/
def Obligations.JobsEnd : Prop :=
  (∀ (s : State) (j : Job) (result : Result) (seq failIndex : Option Nat),
    s.endCommit j result seq failIndex =
      { s with
        session := s.session.set j.port
          { (if j.notice then (s.session.get j.port).arrive (.commitDone result seq)
              else s.session.get j.port) with
            lastCommit := ⟨result, seq, failIndex, j.generation⟩ }
        staging := s.staging.set j.port
          (if result = .done ∨ j.notice = false then ⟨.empty, []⟩
            else { s.staging.get j.port with state := .building })
        journal :=
          if s.journal = .opened ∧ (s.freeSpace < 21 ∨ s.slotsUsed = 256) then .full else s.journal
        writer := .idle, active := none }) ∧
  ∀ (s : State) (j : Job) (result : Result) (target : Nat),
    s.endRevoke j result target =
      { s with
        session :=
          if j.notice then
            s.session.set j.port
              (({ s.session.get j.port with
                  lastRevoke := result, lastRevokeSeq := some target } : Session).arrive
                (.revokeDone result target))
          else s.session
        journal :=
          if s.journal = .opened ∧ (s.freeSpace < 21 ∨ s.slotsUsed = 256) then .full else s.journal
        writer := .idle, active := none }

/-- A verified seal makes the entry SEALED (R67); the patch is applied as one update with the applied flag, and its
change reports are sent (R22, R23, R39, R68); the job ends DONE (R72). Between each two of these another event may
fall: a part that pauses waits there, and the next BURN_PULSE goes on from that moment; without pauses a command takes
them in one step, as section "What each step holds" lists it (log entry 6; R39 and R41 name the first moment, R130 the
second). A VERIFY that finds the seal standing already seals at once. -/
def Obligations.SealAppliesPatch : Prop :=
  ((∀ (s : State) (a : ActiveJob) (offset : Nat) (target taken : Byte),
     s.resetAsserted = false → s.grant = .writer → s.writer = .seal → s.active = some a →
     a.moment = .none → a.todo = [(offset, target)] →
     let m := s.arrayAfterPulse offset taken
     let done := ({ s with array := m }).setEntryState (a.slot + 1) .sealed
     m.read offset = target →
     exec (.burnPulse taken) s = .next
       (if s.pauses = true then
         { done with
           writer := .apply, active := some { a with todo := [], pulses := 0, moment := .sealed } }
        else (done.applyPatch a false).arbitrate).settle) ∧
   (∀ (s : State) (a : ActiveJob),
     s.resetAsserted = false → s.grant = .writer → s.writer = .verify → s.active = some a →
     crc32 (s.array.readRange a.bodyOffset a.bodyLength) = a.crc →
     s.array.read (slotOffset a.slot + 14) = 0xA5 →
     let done := s.setEntryState (a.slot + 1) .sealed
     exec .verify s = .next
       (if s.pauses = true then
         { done with
           writer := .apply, active := some { a with todo := [], pulses := 0, moment := .sealed } }
        else (done.applyPatch a false).arbitrate).settle) ∧
   (∀ (s : State) (a : ActiveJob) (taken : Byte), s.resetAsserted = false →
     s.active = some a →
     (a.moment = .sealed →
       exec (.burnPulse taken) s = .next (s.applyPatch a s.pauses).arbitrate.settle) ∧
     (a.moment = .applied →
       exec (.burnPulse taken) s = .next
         (s.endCommit a.job .done (some (a.slot + 1)) none).arbitrate.settle))) ∧
  ((∀ (s : State) (seq : Nat) (state : EntryState), s.setEntryState seq state =
     { s with index := s.index.map fun r => if r.seq = seq then { r with state := state } else r }) ∧
   (∀ (s : State) (a : ActiveJob) (pause : Bool),
     let seq := a.slot + 1
     let actions := (s.staging.get a.job.port).actions
     let applied : State :=
       { s with
         index := s.index.map fun r => if r.seq = seq then { r with applied := true } else r
         table := actions.foldl (applyToTable seq) s.table
         overlays := s.overlays.filter fun o => !actions.any fun x => x.pin && x.key = o.key }
     let told := applied.sendReports (applyReports s applied actions a.job.port seq)
     s.applyPatch a pause =
       if pause = true then
         { told with
           writer := .apply, active := some { a with todo := [], pulses := 0, moment := .applied } }
       else told.endCommit a.job .done (some seq) none))

/-- Change reports (R23, R127, R130): each report in turn arrives as a VALUE_CHANGED at every session that is OPEN with
a range that covers its key, and at no other, and changes nothing else. A key's change is told by a report of the
effective value where it differs (the overlay's, else the active one, R19), then one of the pending layer where it
differs, going absent or present included. A patch apply tells of its actions' keys in order, with cause PIN where it
removed an overlay on the key and COMMIT otherwise, with the origin port and the entry's number. -/
def Obligations.ChangeReports : Prop :=
  (∀ (s : State) (r : Report) (rest : List Report),
    s.sendReports [] = s ∧
    s.sendReports (r :: rest) =
      ({ s with
          session := s.session.map fun _ u =>
            if u.isOpen = true ∧ ∃ x ∈ u.watches, x.1 ≤ r.key ∧ r.key ≤ x.2 then
              u.arrive (.valueChanged r.key r.layer r.cause r.causePort r.seq)
            else u }).sendReports rest) ∧
  (∀ (before after : State) (key : Nat) (cause : Cause) (port : Port) (seq : Option Nat),
    let effective (s : State) : Bytes :=
      ((s.overlays.find? (·.key = key)).map OverlayRecord.value).getD
        (((s.table.find? (·.key = key)).map KeyRecord.active).getD [])
    let pending (s : State) : Option Bytes := (s.table.find? (·.key = key)).bind KeyRecord.pending
    keyReports before after key cause port seq =
      (if effective before = effective after then []
        else [(⟨key, .effective, cause, port, seq⟩ : Report)]) ++
        (if pending before = pending after then []
        else [(⟨key, .pending, cause, port, seq⟩ : Report)])) ∧
  ∀ (before after : State) (actions : List Action) (origin : Port) (seq : Nat),
    applyReports before after actions origin seq =
      (actions.map fun a =>
        keyReports before after a.key
          (if a.pin = true ∧ ∃ o ∈ before.overlays, o.key = a.key then .pin else .commit) origin
          (some seq)).flatten

/-- Guards, grants and forms. A guard is tested against the key's journal value, pending where present, else active, and
UNTOUCHED against provenance 0 (R18, R49). A port holds a class by its own byte of the active GRANT_MAP (R8). The keys
are the 160 of Tables 1-1 and 1-2, each with the whole descriptor of Table 1-3 and standing at its catalog position
(R1, R4 to R7); a value has its key's form by its length (R2), and lies in range always but for the own keys, whose
ranges Table 1-2 gives (R3, R8). -/
def Obligations.GuardsGrantsForms : Prop :=
  ((∀ (s : State) (a : Action) (r : KeyRecord), s.table.find? (·.key = a.key) = some r →
     (guardHolds s a = true ↔
       match a.guard with
       | .none => True
       | .equals v => v = (match r.pending with
           | some held => held
           | none => r.active)
       | .untouched => r.provenance = 0)) ∧
   (∀ (s : State) (a : Action), a.guard = .none → guardHolds s a = true)) ∧
  (∀ (s : State) (top byte2 byte1 byte0 : Byte) (c : Nat), c < 8 →
    s.activeValue 0x7F0 = [top, byte2, byte1, byte0] →
    s.holdsClass .port0 c = byte0.getLsbD c ∧ s.holdsClass .port1 c = byte1.getLsbD c ∧
      s.holdsClass .port2 c = byte2.getLsbD c) ∧
  ((∀ key : Nat,
     let row (position : Nat) (kind : KeyKind) (size keyClass : Nat) (mode : ApplyMode) (overlays : Bool)
         (minimum maximum : Nat) (rule : ExtraRule) (default : Bytes) : Option Descriptor :=
       some
         { key := key, position := position, kind := kind, size := size, keyClass := keyClass, applyMode := mode
           overlayPermitted := overlays, minimum := minimum, maximum := maximum, extraRule := rule
           default := default }
     descriptor? key =
       if key ≤ 0x00F then row key .scalar8 1 0 .live true 0 255 .none [0]
       else if key ≤ 0x01F then row key .scalar8 1 1 .live true 0 255 .none [0]
       else if key ≤ 0x02F then row key .scalar16 2 2 .live true 0 65535 .none [0, 0]
       else if key ≤ 0x03F then row key .scalar16 2 3 .live true 0 65535 .none [0, 0]
       else if key ≤ 0x04F then row key .scalar32 4 4 .live false 0 4294967295 .none [0, 0, 0, 0]
       else if key ≤ 0x05F then row key .scalar32 4 5 .live false 0 4294967295 .none [0, 0, 0, 0]
       else if key ≤ 0x07F then row key .scalar32 4 6 .deferred false 0 4294967295 .none [0, 0, 0, 0]
       else if 0x100 ≤ key ∧ key ≤ 0x11A then row (key - 0x100 + 128) .blob 32 5 .live false 0 0 .none []
       else if key = 0x7F0 then
         row 155 .scalar32 4 7 .live false 0 0x00FFFFFF .grantRule [0x00, 0x0F, 0x7F, 0xFF]
       else if key = 0x7F1 then row 156 .scalar16 2 7 .live false 0 1024 .none [0x01, 0x00]
       else if key = 0x7F2 then row 157 .scalar16 2 7 .live false 0 65535 .none [0, 0]
       else if key = 0x7F3 then row 158 .scalar8 1 7 .deferred false 5 200 .none [20]
       else if key = 0x7F4 then row 159 .scalar8 1 7 .deferred false 0 7 .none [7]
       else none) ∧
   (catalogKeys.length = 160 ∧ ∀ position key : Nat, catalogKeys[position]? = some key ↔
     ∃ c, descriptor? key = some c ∧ c.position = position) ∧
   (∀ (key : Nat) (c : Descriptor) (v : Bytes), descriptor? key = some c →
     (c.hasForm v = true ↔
       match c.kind with
       | .scalar8 => v.length = 1
       | .scalar16 => v.length = 2
       | .scalar32 => v.length = 4
       | .blob => v.length ≤ 32) ∧
     (c.hasForm v = true →
       (c.inRange v = true ↔
         if key = 0x7F0 then
           natOfBytes v ≤ 0x00FFFFFF ∧ ∃ b ∈ v.drop 1, b.getLsbD 7 = true
         else if key = 0x7F1 then natOfBytes v ≤ 1024
         else if key = 0x7F3 then 5 ≤ natOfBytes v ∧ natOfBytes v ≤ 200
         else if key = 0x7F4 then natOfBytes v ≤ 7
         else True))))

/-- What a patch apply makes of each key's record (R5, R15, R22): a LIVE key takes the value, a DEFERRED key holds it
as pending where it differs from the active value; KEEP changes no value; the pin flag pins; other keys stay. -/
def Obligations.PatchApplies : Prop :=
  ∀ (seq : Nat) (actions : List Action) (table : List KeyRecord), (actions.map Action.key).Nodup →
    (∀ x ∈ actions, (descriptor? x.key).isSome = true) →
    actions.foldl (applyToTable seq) table = table.map fun r =>
      match actions.find? (·.key = r.key), descriptor? r.key with
      | some x, some c =>
        let value : Option Bytes :=
          match x.op with
          | .assign v => some v
          | .retire => some c.default
          | .keep => none
        let valued : KeyRecord :=
          match value, c.applyMode with
          | some v, .live => { r with active := v, pending := none, provenance := seq }
          | some v, .deferred =>
            { r with pending := if v = r.active then none else some v, provenance := seq }
          | none, _ => r
        if x.pin then { valued with pinned := true, pinSeq := some seq } else valued
      | _, _ => r

/-- The end of a void (R70, R71): the record becomes VOID; where a byte of the void fails, the byte under burn or a later
one, it stays TORN and the journal is FAULTED; the job ends BURN_FAULT with its sequence number either way. The end of
a revoke burn (R43, R98): any bit in the revoke field makes the entry REVOKED and the job DONE; a field still 00h after
the fourth pulse is a REVOKE_FAULT and the journal is FAULTED. Then the arbiter acts (R44, see ArbiterGrants). -/
def Obligations.VoidAndRevokeEnd : Prop :=
  (∀ (s : State) (a : ActiveJob) (offset : Nat) (target taken : Byte) (rest : List (Nat × Byte)),
     s.resetAsserted = false → s.writer = .voiding → s.active = some a → a.moment = .none →
     a.todo = (offset, target) :: rest →
     let m := s.arrayAfterPulse offset taken
     (m.burnt a.todo →
       exec (.burnPulse taken) s = .next
         (({ s with
             array := m
             index := s.index.map fun (r : IndexRecord) =>
               if r.seq = a.slot + 1 then { r with state := .void } else r }).endCommit a.job .burnFault
           (some (a.slot + 1)) none).arbitrate.settle) ∧
     (m.pulseFails a.pulses a.todo →
       exec (.burnPulse taken) s = .next
         (({ s with array := m, journal := .faulted }).endCommit a.job .burnFault
           (some (a.slot + 1)) none).arbitrate.settle)) ∧
  (∀ (s : State) (a : ActiveJob) (taken : Byte),
     s.resetAsserted = false → s.writer = .revoking → s.active = some a → a.moment = .none →
     a.todo = [(slotOffset a.slot + 15, 0xFF)] →
     let m := s.arrayAfterPulse (slotOffset a.slot + 15) taken
     let field := m.read (slotOffset a.slot + 15)
     (field = 0xFF ∨ field ≠ 0 ∧ 4 ≤ a.pulses + 1 →
       exec (.burnPulse taken) s = .next
         (({ s with
             array := m
             index := s.index.map fun (r : IndexRecord) =>
               if r.seq = a.slot + 1 then { r with state := .revoked } else r }).endRevoke a.job .done
           (a.slot + 1)).arbitrate.settle) ∧
     (field = 0 → 4 ≤ a.pulses + 1 →
       exec (.burnPulse taken) s = .next
         (({ s with array := m, journal := .faulted }).endRevoke a.job .revokeFault
           (a.slot + 1)).arbitrate.settle))

/-- A job granted (R10, R59, R61, R62, R64, R76, R97, R98, R104). The writer holds it, in PRECHECK for a COMMIT, whose
list is BURNING, in REVOKING for a REVOKE; a part that pauses waits there, and the next BURN_PULSE makes the job's
tests, while without pauses the grant takes them in one step (log entry 6). The tests of the precheck in order, each
ending the job with its result and NOT_BLANK moving the journal to FAULTED; past them the planned body is burned from
body top. The tests of a revoke in order, then the burn of the revoke field to FFh, whatever bits it holds already; a
field that reads FFh already needs no pulse and the job is DONE at once. -/
def Obligations.JobsStart : Prop :=
  ((∀ (s : State) (j : Job),
     let held (step : WriterState) (staging : PerPort StagingList) : State :=
       { s with
         writer := step, staging := staging
         active := some
           { job := j, slot := 0, bodyOffset := 0, bodyLength := 0, count := 0, crc := 0, todo := []
             pulses := 0, moment := .granted } }
     let granted : State :=
       match j.kind with
       | .commit =>
         held .precheck (s.staging.set j.port { s.staging.get j.port with state := .burning })
       | .revoke _ => held .revoking s.staging
     s.startJob j = if s.pauses = true then granted else granted.testJob j) ∧
   ∀ (s : State) (a : ActiveJob) (taken : Byte), s.resetAsserted = false → s.active = some a →
     a.moment = .granted → exec (.burnPulse taken) s = .next (s.testJob a.job).arbitrate.settle) ∧
  (∀ (s : State) (j : Job), j.kind = .commit →
     let actions := (s.staging.get j.port).actions
     let needs := encodedLength actions + 16
     let guardFails := actions.findIdx? fun x => !guardHolds s x
     (∀ x ∈ actions, (descriptor? x.key).isSome = true) → actions ≠ [] → actions.length ≤ 24 →
     s.testJob j =
       if s.journal = .faulted then s.endCommit j .journalFaulted none none
       else if s.burnEn = false then s.endCommit j .locked none none
       else if actions.any (fun x => !(descriptor? x.key).any fun c => s.holdsClass j.port c.keyClass) then
         s.endCommit j .denied none none
       else if actions.any (s.isPinned ·.key) then s.endCommit j .pinned none none
       else if guardFails ≠ none then s.endCommit j .guardFailed none guardFails
       else if ¬(s.slotsUsed < 256 ∧
           if actions.all (fun x => (descriptor? x.key).any fun c => c.keyClass = 7) then
             needs ≤ s.freeSpace
           else needs + s.activeNumber keyCommitReserve ≤ s.freeSpace) then
         s.endCommit j .noSpace none none
       else if (s.array.readRange s.bodyTop (encodedLength actions) ++
           s.array.readRange (slotOffset s.slotsUsed) 16).any (· ≠ 0) then
         ({ s with journal := .faulted }).endCommit j .notBlank none none
       else
         { s with
           writer := .body
           active := some
             { job := j, slot := s.slotsUsed, bodyOffset := s.bodyTop, bodyLength := encodedLength actions
               count := actions.length, crc := crc32 (bodyBytes actions)
               todo := burnsAt s.bodyTop (bodyBytes actions), pulses := 0, moment := .none } }) ∧
  (∀ (s : State) (j : Job) (target : Nat), j.kind = .revoke target → 1 ≤ target →
     s.testJob j =
       match s.index.find? (·.seq = target) with
       | none => s.endRevoke j .notRevocable target
       | some e =>
         if e.state ≠ .sealed then s.endRevoke j .notRevocable target
         else if e.origin ≠ j.port.number ∧ s.holdsClass j.port 7 = false then
           s.endRevoke j .denied target
         else if s.burnEn = false then s.endRevoke j .locked target
         else if s.array.read (slotOffset (target - 1) + 15) = 0xFF then
           ({ s with
               index := s.index.map fun (r : IndexRecord) =>
                 if r.seq = target then { r with state := .revoked } else r }).endRevoke j .done target
         else
           { s with
             writer := .revoking
             active := some
               { job := j, slot := target - 1, bodyOffset := 0, bodyLength := 0, count := 0, crc := 0
                 todo := [(slotOffset (target - 1) + 15, 0xFF)], pulses := 0, moment := .none } })

/-- The arbiter (R44): a held array stays as it is; a free one goes to a pending REBUILD first, whose run starts with
the journal REPLAYING (R91), else to the job at the head of the queue, else it stays free. A job that ends at its
first tests frees the array for the next. -/
def Obligations.ArbiterGrants : Prop :=
  ∀ s : State,
    (s.grant = .replay ∨ s.grant = .writer ∧ s.writer ≠ .idle → s.arbitrate = s) ∧
    (s.grant = .free ∨ s.grant = .writer ∧ s.writer = .idle →
      (s.replay = .pending →
        s.arbitrate =
          { s with
            grant := .replay, replay := .rebuilding, journal := .replaying
            working := some WorkingResult.defaults }) ∧
      (s.replay ≠ .pending → s.burnQueue = [] → s.arbitrate = { s with grant := .free }) ∧
      ∀ (j : Job) (rest : List Job), s.replay ≠ .pending → s.burnQueue = j :: rest →
        let started := ({ s with burnQueue := rest, grant := .writer }).startJob j
        s.arbitrate = if started.writer = .idle then started.arbitrate else started)

/-! ### Delivery of a request and its answer -/

/-- A master's submission at a window, in write transactions of its own (R144, R147, R158, R159, R162; log entries 4
and 8): the record's bytes stand in the request area, GO moves the port (with TAKE's part from ANSWERED, R161), and the
handler holds the record, answered at once where a common test refuses it; in SUBMITTED, or with the handler EXECUTING
another record, nothing is delivered. A request that a common test answered, or that its transport turned away, reaches
no block. A kind code that names no request makes a malformed record, answered BAD_REQUEST (R148), at a window in IDLE
as at port 2, where the command is the REQ frame itself. -/
def Obligations.RequestsDelivered : Prop :=
  (∀ (s : State) (w : WindowPort) (r : Record),
     let p : Port := w.port
     let x := s.window.get w
     let h := s.handler.get p
     x.requestArea.length = 64 → r.argLength = r.args.length → r.args.length ≤ 60 →
     s.awaits p r = false →
     (x.state ≠ .submitted → h.state = .idle →
       s.submitOnce p r =
         (s.setHandler p
           { state := .executing, current := some r, abandoned := false, stored := none
             lastTag := h.lastTag
             service :=
               if s.isDisabled p = true then .answered ⟨.disabled, r.tag, []⟩
               else if s.replay = .startup then .answered ⟨.starting, r.tag, []⟩
               else if r.request? = none then .answered ⟨.badRequest, r.tag, []⟩
               else .waiting }).setWindow w
           { x with
             requestArea := r.bytes ++ x.requestArea.drop (r.args.length + 3)
             state := if x.state = .idle ∨ x.state = .answered then .submitted else x.state
             overrun := if x.state = .answered then 0 else x.overrun
             pointer := 0x02
             spi := .deselected
             busOut := if strapTransport x.strap = .spi then some 0 else x.busOut }) ∧
     (x.state = .submitted → (s.submitOnce p r).handler = s.handler ∧
       ((s.submitOnce p r).window.get w).requestArea = x.requestArea) ∧
     (h.state = .executing → (s.submitOnce p r).handler = s.handler)) ∧
  ((∀ (s : State) (p : Port) (r : Record), s.resetAsserted = false → s.awaits p r = false →
     (s.submitOnce p r).awaits p r = false →
     execRequest p r s = .next (s.submitOnce p r).settle) ∧
   (∀ (tag kind : Byte) (args : Bytes), (requestKind? kind).isNone = true →
     (Record.make kind tag args).request? = none) ∧
   (∀ (s : State) (tag kind : Byte) (args : Bytes), (requestKind? kind).isNone = true →
     s.awaits .port2 (Record.make kind tag args) = false →
     exec (.unknownRequestKind .port2 tag kind args) s = exec (.req tag kind args) s) ∧
   ∀ (s : State) (w : WindowPort) (tag kind : Byte) (args : Bytes),
     (requestKind? kind).isNone = true → args.length ≤ 60 → s.resetAsserted = false →
     (s.window.get w).requestArea.length = 64 → (s.window.get w).state = .idle →
     (s.handler.get w.port).state = .idle → s.replay ≠ .startup → s.isDisabled w.port = false →
     exec (.unknownRequestKind w.port tag kind args) s = .next
       ((s.setHandler w.port
         { state := .executing, current := some (Record.make kind tag args), abandoned := false
           stored := none, lastTag := (s.handler.get w.port).lastTag
           service := .answered ⟨.badRequest, tag, []⟩ }).setWindow w
         { s.window.get w with
           requestArea := (Record.make kind tag args).bytes ++
             (s.window.get w).requestArea.drop (args.length + 3)
           state := .submitted, pointer := 0x02, spi := .deselected
           busOut := if strapTransport (s.window.get w).strap = .spi then some 0
             else (s.window.get w).busOut }).settle)

/-- An answer becomes ready (R145, R146, R161, R162, R172, R179): a window takes the response into its area, padded
with 00h, and shows ANSWERED; port 2 stores it and it is pending on the link; an abandoned request's answer is
discarded. In OFF nothing is pending; an IDLE handler has no answer (log entries 3 and 13). The abandoned mark goes back
to no with the service's end: the model's choice (log entry 21). A request that a GO or a REQ delivered and that still waits is first carried to its block, as the command of its record does, and its answer
then handed over (log entry 4); a read held by the arbiter has no answer yet, and nothing is handed over (R45).
The response record is its status, its tag, its data's length and the data; the codes of the statuses (R151, R182). -/
def Obligations.AnswerHandedOver : Prop :=
  [Status.ok, .accepted, .busy, .starting, .rebuilding, .disabled, .noSession, .badRequest, .unknownKey,
      .badLength, .range, .denied, .pinned, .notAllowed, .owned, .limit, .notFound, .tooLate,
      .empty].map Status.code =
    (List.range 19).map (BitVec.ofNat 8) ∧
  ∀ (s : State) (p : Port) (r : Response), s.resetAsserted = false →
    ((s.handler.get p).state = .idle → exec (.answerReady p) s = .next s.settle) ∧
    (∀ q : Record, (s.handler.get p).state = .executing → (s.handler.get p).service = .waiting →
      (s.handler.get p).current = some q → ∃ c : State,
        execRequest p q s = .next c ∧ exec (.answerReady p) s = exec (.answerReady p) c) ∧
    ((s.handler.get p).state = .executing → (s.handler.get p).service = .held →
      exec (.answerReady p) s = .next s.settle) ∧
    ((s.handler.get p).state = .executing → (s.handler.get p).service = .answered r →
      let finish (stored : Option Response) : State :=
        s.setHandler p
          { s.handler.get p with
            state := .idle, current := none, abandoned := false, stored := stored, service := .waiting }
      (∀ w, p = w.port → (s.handler.get p).abandoned = false →
        exec (.answerReady p) s = .next
          ((finish none).setWindow w
            { s.window.get w with
              responseArea :=
                (r.status.code :: r.tag :: BitVec.ofNat 8 r.data.length :: r.data ++
                  List.replicate 64 0).take 64
              state := if (s.window.get w).state = .submitted then .answered
                else (s.window.get w).state }).settle) ∧
      (∀ w, p = w.port → (s.handler.get p).abandoned = true →
        exec (.answerReady p) s = .next
          ((finish none).setWindow w
            { s.window.get w with
              state := if (s.window.get w).state = .submitted then .idle
                else (s.window.get w).state }).settle) ∧
      (p = .port2 → (s.handler.get p).abandoned = false →
        exec (.answerReady p) s = .next
          ((finish (some r)).setLink
            { s.link with
              pending := if s.link.state = .off then s.link.pending else some .response }).settle) ∧
      (p = .port2 → (s.handler.get p).abandoned = true →
        exec (.answerReady p) s = .next (finish none).settle))

/-! ### Read requests -/

/-- GET (R19, R153): refused during a REBUILD run and for a key not in the catalog; else the overlay's value where one
stands on the key, else the active value, with its source. GET_DETAIL (R20, R108, R112, R154): the same two tests, then
the key's record, with pinned and stale, and its overlay in summary. -/
def Obligations.GetsAnswer : Prop :=
  (∀ (s d : State) (p : Port) (tag : Byte) (key : Word16),
     s.takes p (RequestKind.get.record tag (bytes16 key)) d →
     exec (.get p tag key) s = .next
       (if d.replay = .rebuilding then d.answers p tag .rebuilding []
        else if descriptor? key.toNat = none then d.answers p tag .unknownKey []
        else
          match d.overlays.find? (·.key = key.toNat) with
          | some o => d.answers p tag .ok (bytes16 key ++ 0x01 :: valueField o.value)
          | none => d.answers p tag .ok (bytes16 key ++ 0x00 :: valueField (d.activeValue key.toNat)))) ∧
  (∀ (s d : State) (p : Port) (tag : Byte) (key : Word16),
     s.takes p (RequestKind.getDetail.record tag (bytes16 key)) d →
     (d.replay = .rebuilding → exec (.getDetail p tag key) s = .next (d.answers p tag .rebuilding [])) ∧
     (d.replay ≠ .rebuilding → descriptor? key.toNat = none →
       exec (.getDetail p tag key) s = .next (d.answers p tag .unknownKey [])) ∧
     ∀ r : KeyRecord, d.replay ≠ .rebuilding → descriptor? key.toNat ≠ none →
       d.table.find? (·.key = key.toNat) = some r →
       let stale : Bool :=
         r.provenance ≠ 0 && (d.index.find? (·.seq = r.provenance)).any fun e => e.state = .revoked
       exec (.getDetail p tag key) s = .next
         (d.answers p tag .ok
           (bytes16 key ++
             [BitVec.ofNat 8 ((if r.pinned then 1 else 0) + (if stale then 2 else 0))] ++
             bytesOfNat 2 r.provenance ++ bytesOfNat 2 (r.pinSeq.getD 0) ++ valueField r.active ++
             (match r.pending with
               | some v => valueField v
               | none => [0xFF]) ++
             match d.overlays.find? (·.key = key.toNat) with
               | some o =>
                 valueField o.value ++ [BitVec.ofNat 8 o.ownerPort.number, if o.bound then 1 else 0] ++
                   bytesOfNat 2 (o.remaining.getD 0)
               | none => [0xFF])))

/-- CATALOG_READ (R155, Table 11-2), JOURNAL_STAT (R100, R156), COMMIT_RESULT (R75) and LINK_STAT (R178): the data of
the state as it stands; LINK_STAT clears its counters where asked, after reading them, in OFF too by the model's choice
(log entry 19). The codes of journal, list and catalog fields, and of results, in these data (R152, R180). -/
def Obligations.StatusReadsAnswer : Prop :=
  ([JournalState.replaying, .opened, .full, .faulted].map JournalState.code = [0x00, 0x01, 0x02, 0x03] ∧
   [ListState.empty, .building, .queued, .burning].map ListState.code = [0x00, 0x01, 0x02, 0x03] ∧
   [KeyKind.scalar8, .scalar16, .scalar32, .blob].map KeyKind.code = [0x00, 0x01, 0x02, 0x03] ∧
   [ApplyMode.live, .deferred].map ApplyMode.code = [0x00, 0x01] ∧
   [ExtraRule.none, .grantRule].map ExtraRule.code = [0x00, 0x01] ∧
   (Result.none.code, Result.done.code, Result.withdrawn.code, Result.journalFaulted.code) =
     (0x00, 0x01, 0x02, 0x03) ∧
   (Result.locked.code, Result.denied.code, Result.pinned.code, Result.guardFailed.code) =
     (0x04, 0x05, 0x06, 0x07) ∧
   (Result.noSpace.code, Result.notBlank.code, Result.burnFault.code) = (0x08, 0x09, 0x0A) ∧
   (Result.notRevocable.code, Result.revokeFault.code) = (0x0B, 0x0C)) ∧
  (∀ (s d : State) (p : Port) (tag position : Byte),
    s.takes p (RequestKind.catalogRead.record tag [position]) d →
    exec (.catalogRead p tag position) s = .next
      (match catalogKeys[position.toNat]?.bind descriptor? with
       | none => d.answers p tag .range []
       | some c => d.answers p tag .ok
           (bytesOfNat 2 c.key ++
             [position, c.kind.code, BitVec.ofNat 8 c.size, BitVec.ofNat 8 c.keyClass, c.applyMode.code,
              if c.overlayPermitted then 1 else 0] ++
             bytesOfNat 4 c.minimum ++ bytesOfNat 4 c.maximum ++ [c.extraRule.code] ++
             valueField c.default))) ∧
  (∀ (s d : State) (p : Port) (tag : Byte), s.takes p (RequestKind.journalStat.record tag []) d →
    let u := d.session.get p
    let c := d.counts
    exec (.journalStat p tag) s = .next (d.answers p tag .ok
      ([d.journal.code, if d.replay = .pending then 1 else if d.replay = .rebuilding then 2 else 0] ++
        [d.bodyTop, d.directoryBottom, d.freeSpace, d.slotsUsed, c.total, c.applied, c.revoked, c.void,
          c.torn, c.corrupt].flatMap (bytesOfNat 2) ++
        if u.isOpen then u.lastRevoke.code :: bytesOfNat 2 (u.lastRevokeSeq.getD 0)
        else [0, 0, 0]))) ∧
  (∀ (s d : State) (p : Port) (tag : Byte), s.takes p (RequestKind.commitResult.record tag []) d →
    let c := (d.session.get p).lastCommit
    let l := d.staging.get p
    exec (.commitResult p tag) s = .next (d.answers p tag .ok
      (c.result.code :: bytesOfNat 2 (c.seq.getD 0) ++
        [match c.failIndex with
          | some i => BitVec.ofNat 8 i
          | none => 0xFF,
         c.generation, l.state.code, BitVec.ofNat 8 l.actions.length]))) ∧
  ∀ (s d : State) (p : Port) (tag : Byte) (clear : Bool),
    s.takes p (RequestKind.linkStat.record tag [flagByte clear]) d →
    exec (.linkStat p tag clear) s = .next
      ((if clear = true then d.setLink { d.link with crcErrors := 0, collisions := 0, losses := 0 }
        else d).answers p tag .ok
        ([d.link.crcErrors, d.link.collisions, d.link.losses].flatMap (bytesOfNat 2) ++
          [BitVec.ofNat 8 (d.link.ackWindow.getD 0)]))

/-- JOURNAL_READ (R45): RANGE outside the array; held while a run holds the array; else the bytes as they stand. A
held read is taken once no run holds the array and is handed over; none held, nothing happens (log entry 3). The
hand-over leaves the handler IDLE with no current request: an answer not abandoned fills the response area of a window,
which then shows ANSWERED, or is stored on port 2 and pending on the link unless it is OFF; an abandoned one is discarded
(R145, R146, R162, R172, R179). The abandoned mark it leaves is the model's choice (log entry 21). -/
def Obligations.JournalReadAnswers : Prop :=
  (∀ (s d : State) (p : Port) (tag : Byte) (offset : Word16) (length : Byte),
    s.takes p (RequestKind.journalRead.record tag (bytes16 offset ++ [length])) d →
    exec (.journalRead p tag offset length) s = .next
      (if length = 0 ∨ 60 < length.toNat ∨ 0x2FFF < offset.toNat ∨
          0x3000 < offset.toNat + length.toNat then
        d.answers p tag .range []
       else if d.grant = .replay then (d.setService p .held).settle
       else d.answers p tag .ok
         ((List.range length.toNat).map fun i => d.array.read (offset.toNat + i)))) ∧
  (∀ (s : State) (p : Port) (tag : Byte) (offset : Word16) (length : Byte), s.resetAsserted = false →
    (s.handler.get p).state = .executing → (s.handler.get p).service = .held →
    (s.handler.get p).current =
      some (RequestKind.journalRead.record tag (bytes16 offset ++ [length])) →
    exec (.heldJournalReadServed p) s = .next
      (if s.grant = .replay then s.settle
       else (s.handOver p ⟨.ok, tag,
         (List.range length.toNat).map fun i => s.array.read (offset.toNat + i)⟩).settle)) ∧
  (∀ (s : State) (p : Port), s.resetAsserted = false →
    (s.handler.get p).state = .idle ∨ (s.handler.get p).service ≠ .held →
    exec (.heldJournalReadServed p) s = .next s.settle) ∧
  ∀ (s : State) (p : Port) (r : Response),
    let h := s.handler.get p
    let finish (stored : Option Response) : State :=
      s.setHandler p
        { h with state := .idle, current := none, abandoned := false, stored := stored, service := .waiting }
    (∀ w, p = w.port →
      let x := s.window.get w
      s.handOver p r = (finish none).setWindow w
        (if h.abandoned = true then { x with state := if x.state = .submitted then .idle else x.state }
         else
          { x with
            responseArea :=
              (r.status.code :: r.tag :: BitVec.ofNat 8 r.data.length :: r.data ++
                List.replicate 64 0).take 64
            state := if x.state = .submitted then .answered else x.state })) ∧
    (p = .port2 →
      s.handOver p r =
        if h.abandoned = true then finish none
        else (finish (some r)).setLink
          { s.link with pending := if s.link.state = .off then s.link.pending else some .response })

/-- ENTRY_READ (R41, R182), with the codes of the entry states (R180). -/
def Obligations.EntryReadAnswers : Prop :=
  [EntryState.sealed, .revoked, .void, .torn, .corrupt].map EntryState.code =
    [0x01, 0x02, 0x03, 0x04, 0x05] ∧
  ∀ (s d : State) (p : Port) (tag : Byte) (seq : Word16),
    s.takes p (RequestKind.entryRead.record tag (bytes16 seq)) d →
    exec (.entryRead p tag seq) s = .next
      (if seq.toNat = 0 ∨ 256 < seq.toNat then d.answers p tag .range []
       else
         match d.index.find? (·.seq = seq.toNat) with
         | none => d.answers p tag .notFound []
         | some r => d.answers p tag .ok
             (bytes16 seq ++ [r.state.code, BitVec.ofNat 8 r.origin] ++ bytesOfNat 2 r.bodyOffset ++
               bytesOfNat 2 r.bodyLength ++ [BitVec.ofNat 8 r.count, if r.applied then 1 else 0]))

/-! ### Sessions, watches and notices -/

/-- The end of a session and what it hands on (R57, R60, R77, R96, R115, R124, R125, R175): the unit CLOSED and emptied,
a BUILDING list discarded, a QUEUED commit withdrawn and recorded WITHDRAWN with the queued job's generation, a BURNING
one left to run, the port's
queued job removed, its notice flags cleared, its bound overlays removed as one update with cause SESSION_END, and
on port 2 the acknowledgement timer stopped. A CLOSED port keeps everything. -/
def Obligations.SessionEnds : Prop :=
  ∀ (s : State) (p : Port),
    ((s.session.get p).isOpen = false → s.endSession p = s) ∧
    ((s.session.get p).isOpen = true →
      let u := s.session.get p
      let l := s.staging.get p
      let gone := s.overlays.filter fun o => o.bound && o.ownerPort = p
      let kept : State :=
        { s with
          session := s.session.set p
            { u with
              isOpen := false, watches := [], queue := [], lastRevoke := .none, lastRevokeSeq := none
              headSent := false, lateCount := 0
              lastCommit :=
                if l.state = .queued then
                  ⟨.withdrawn, none, none,
                    match s.burnQueue.find? fun (j : Job) => j.port = p with
                    | some j => j.generation
                    | none => u.generation⟩
                else u.lastCommit }
          staging :=
            if l.state = .queued ∨ l.state = .building then s.staging.set p ⟨.empty, []⟩ else s.staging
          burnQueue := s.burnQueue.filter (·.port ≠ p)
          active := s.active.map fun a =>
            if a.job.port = p then { a with job := { a.job with notice := false } } else a
          requester := s.requester.map fun q => if q.port = p then { q with notice := false } else q
          link :=
            if p = .port2 then
              { s.link with
                timer := .stopped, sendCount := 0
                sending := match s.link.sending with
                  | some (.note _) => some (.note false)
                  | other => other }
            else s.link
          overlays := s.overlays.filter fun o => !(o.bound && o.ownerPort = p) }
      s.endSession p = kept.sendReports
        (gone.flatMap fun o => keyReports s kept o.key .sessionEnd p none))

/-- OPEN (R122) and CLOSE (R123): OPEN ends an open session first and begins a new one with the next generation, from
255 to 0 in turn; CLOSE ends the session, and refuses a CLOSED port. -/
def Obligations.OpenCloseAnswer : Prop :=
  (∀ (s d : State) (p : Port) (tag : Byte), s.takes p (RequestKind.openSession.record tag []) d →
    let ended := d.endSession p
    exec (.openSession p tag) s = .next
      ((ended.setSession p
        { isOpen := true, generation := (d.session.get p).generation + 1, watches := [], queue := []
          tagCounter := 0, lastRevoke := .none, lastRevokeSeq := none
          lastCommit := (ended.session.get p).lastCommit, headSent := false, lateCount := 0 }).answers
        p tag .ok
        [(d.session.get p).generation + 1, if (d.session.get p).isOpen then 1 else 0])) ∧
  ∀ (s d : State) (p : Port) (tag : Byte), s.takes p (RequestKind.closeSession.record tag []) d →
    exec (.closeSession p tag) s = .next
      (if (d.session.get p).isOpen = true then (d.endSession p).answers p tag .ok []
       else d.answers p tag .noSession [])

/-- WATCH (R128) and UNWATCH (R129). The one byte of the count is the model's choice (log entry 20). -/
def Obligations.WatchAnswers : Prop :=
  (∀ (s d : State) (p : Port) (tag : Byte) (first last : Word16),
    s.takes p (RequestKind.watch.record tag (bytes16 first ++ bytes16 last)) d →
    let u := d.session.get p
    exec (.watch p tag first last) s = .next
      (if u.isOpen = false then d.answers p tag .noSession []
       else if 0xFFF < first.toNat ∨ 0xFFF < last.toNat ∨ last.toNat < first.toNat then
         d.answers p tag .range []
       else if 8 ≤ u.watches.length then d.answers p tag .limit []
       else (d.setSession p { u with watches := u.watches ++ [(first.toNat, last.toNat)] }).answers
         p tag .ok [BitVec.ofNat 8 (u.watches.length + 1)])) ∧
  ∀ (s d : State) (p : Port) (tag : Byte) (first last : Word16),
    s.takes p (RequestKind.unwatch.record tag (bytes16 first ++ bytes16 last)) d →
    let u := d.session.get p
    ((u.isOpen = false → exec (.unwatch p tag first last) s = .next (d.answers p tag .noSession [])) ∧
     (u.isOpen = true → (first.toNat, last.toNat) ∉ u.watches →
       exec (.unwatch p tag first last) s = .next (d.answers p tag .notFound [])) ∧
     ∀ before after : List (Nat × Nat), u.isOpen = true →
       u.watches = before ++ (first.toNat, last.toNat) :: after → (first.toNat, last.toNat) ∉ before →
       exec (.unwatch p tag first last) s = .next
         ((d.setSession p { u with watches := before ++ after }).answers p tag .ok
           [BitVec.ofNat 8 (before ++ after).length]))

/-- NOTICE_READ (R137): the tests in order, then the head, which leaves the queue. The one byte of the count left is the
model's choice (log entry 20). The codes of the kinds, layers, causes and results and the six bodies of a notice, as
NOTICE_READ and a NOTE frame carry them (R152, R180, R183, Table 11-3). -/
def Obligations.NoticeReadAnswers : Prop :=
  (∀ (key : Nat) (layer : Layer) (cause : Cause) (port : Port) (seq : Option Nat) (result : Result) (n : Nat)
     (c : ReplayCounts),
    let number (n : Nat) : Bytes := [BitVec.ofNat 8 (n / 256), BitVec.ofNat 8 n]
    let carried (body : NoticeBody) : Byte × Bytes := (body.code, body.bytes)
    carried (.valueChanged key layer cause port seq) =
      (0x01, number key ++ [layer.code, cause.code, BitVec.ofNat 8 port.number] ++ number (seq.getD 0)) ∧
    carried (.commitDone result seq) = (0x02, result.code :: number (seq.getD 0)) ∧
    carried (.revokeDone result n) = (0x03, result.code :: number n) ∧
    carried (.rebuildDone c) =
      (0x04, [c.total, c.applied, c.revoked, c.void, c.torn, c.corrupt].flatMap number) ∧
    carried (.rebuilt port) = (0x05, [BitVec.ofNat 8 port.number]) ∧
    carried (.noticesLost n) = (0x06, [BitVec.ofNat 8 n])) ∧
  ([Layer.effective, .pending].map Layer.code = [0x00, 0x01] ∧
   [Cause.commit, .pin, .overlaySet, .overlayClear, .overlayExpired, .sessionEnd].map Cause.code =
     [0x01, 0x02, 0x03, 0x04, 0x05, 0x06] ∧
   [Result.none, .done, .withdrawn, .journalFaulted, .locked, .denied, .pinned, .guardFailed, .noSpace,
      .notBlank, .burnFault, .notRevocable, .revokeFault].map Result.code =
     (List.range 13).map (BitVec.ofNat 8) ∧
   [Port.port0, .port1, .port2].map Port.number = [0, 1, 2]) ∧
  ∀ (s d : State) (p : Port) (tag : Byte), s.takes p (RequestKind.noticeRead.record tag []) d →
    let u := d.session.get p
    exec (.noticeRead p tag) s = .next
      (if u.isOpen = false then d.answers p tag .noSession []
       else if p = .port2 then d.answers p tag .notAllowed []
       else
         match u.queue with
         | [] => d.answers p tag .empty []
         | n :: rest => (d.setSession p { u with queue := rest }).answers p tag .ok
             ([BitVec.ofNat 8 rest.length, n.body.code, n.tag] ++ n.body.bytes))

/-- The arrival of a notice (R133, R134, R135, R136, R138): it takes the place of an undelivered one for the same key
and layer, which keeps its tag; else a marker counts it, up to 255, and a marker that has been sent counts it as late
too (R139); else with at most 14 notices it joins at the end with the next tag; else a marker joins that counts 1.
Nothing else of the session changes. -/
def Obligations.NoticeArrives : Prop :=
  ∀ (u : Session) (body : NoticeBody),
    let subject := Notice.subject? ⟨0, body⟩
    (∀ (sent before after : List Notice) (n : Notice), subject ≠ none →
      u.queue = sent ++ before ++ n :: after → sent.length = (if u.headSent then 1 else 0) →
      n.subject? = subject → (∀ x ∈ before, x.subject? ≠ subject) →
      u.arrive body = { u with queue := sent ++ before ++ { n with body := body } :: after }) ∧
    ((subject = none ∨ ∀ x ∈ u.undelivered, x.subject? ≠ subject) →
      (u.queue.any Notice.isMarker = true →
        u.arrive body =
          { u with
            queue := u.queue.map fun n =>
              match n.body with
              | .noticesLost count =>
                { n with body := .noticesLost (if count < 255 then count + 1 else count) }
              | _ => n
            lateCount :=
              if u.headSent = true ∧ (∃ h ∈ u.queue.head?, h.isMarker = true) ∧ u.lateCount < 255 then
                u.lateCount + 1
              else u.lateCount }) ∧
      (u.queue.any Notice.isMarker = false → u.queue.length ≤ 14 →
        u.arrive body =
          { u with queue := u.queue ++ [⟨u.tagCounter + 1, body⟩], tagCounter := u.tagCounter + 1 }) ∧
      (u.queue.any Notice.isMarker = false → 14 < u.queue.length →
        u.arrive body =
          { u with
            queue := u.queue ++ [⟨u.tagCounter + 1, .noticesLost 1⟩], tagCounter := u.tagCounter + 1 }))

/-! ### Staging -/

/-- STAGE_ASSIGN, STAGE_RETIRE and STAGE_PIN (R50 to R53): the checks in order; then the action takes the place of the
one on its key, whose pin flag it keeps, or is appended; or the pin flag of the key's action is set, or a pinned KEEP
is appended; and the list is BUILDING. -/
def Obligations.StageEdits : Prop :=
  (let stage (d : State) (p : Port) (tag : Byte) (key : Nat) (op : ActionOp) (guard : Guard)
       (formed : Descriptor → Bool) (ranged : Descriptor → Bool) : State :=
     let l := d.staging.get p
     let actions : List Action :=
       if l.actions.any (·.key = key) then
         l.actions.map fun a => if a.key = key then ⟨key, op, a.pin, guard⟩ else a
       else l.actions ++ [⟨key, op, false, guard⟩]
     if (d.session.get p).isOpen = false then d.answers p tag .noSession []
     else if l.state = .queued ∨ l.state = .burning then d.answers p tag .busy []
     else
       match descriptor? key with
       | none => d.answers p tag .unknownKey []
       | some c =>
         if formed c = false then d.answers p tag .badLength []
         else if ranged c = false then d.answers p tag .range []
         else if d.holdsClass p c.keyClass = false then d.answers p tag .denied []
         else if d.isPinned key = true then d.answers p tag .pinned []
         else if 24 < actions.length ∨ 512 < 1 + (actions.map fun a => 4 + a.op.value.length).sum then
           d.answers p tag .limit []
         else (d.setStaging p ⟨.building, actions⟩).answers p tag .ok []
   (∀ (s d : State) (p : Port) (tag : Byte) (key : Word16) (value : Bytes) (guard : GuardArg),
     (Instr.stageAssign p tag key value guard).wf = true →
     value.length + (guardOf guard).length ≤ 51 →
     s.takes p (RequestKind.stageAssign.record tag (stageAssignArgs key value guard)) d →
     exec (.stageAssign p tag key value guard) s = .next
       (stage d p tag key.toNat (.assign value) (guardOf guard)
         (fun c => c.hasForm value && (guardOf guard).hasForm c) (fun c => c.inRange value))) ∧
   ∀ (s d : State) (p : Port) (tag : Byte) (key : Word16) (guard : GuardArg),
     (Instr.stageRetire p tag key guard).wf = true →
     s.takes p (RequestKind.stageRetire.record tag (stageRetireArgs key guard)) d →
     exec (.stageRetire p tag key guard) s = .next
       (stage d p tag key.toNat .retire (guardOf guard) (fun c => (guardOf guard).hasForm c)
         (fun _ => true))) ∧
  (∀ (s d : State) (p : Port) (tag : Byte) (key : Word16),
     s.takes p (RequestKind.stagePin.record tag (bytes16 key)) d →
     let l := d.staging.get p
     let k := key.toNat
     let actions : List Action :=
       if l.actions.any (·.key = k) then
         l.actions.map fun a => if a.key = k then { a with pin := true } else a
       else l.actions ++ [⟨k, .keep, true, .none⟩]
     exec (.stagePin p tag key) s = .next
       (if (d.session.get p).isOpen = false then d.answers p tag .noSession []
        else if l.state = .queued ∨ l.state = .burning then d.answers p tag .busy []
        else
          match descriptor? k with
          | none => d.answers p tag .unknownKey []
          | some c =>
            if d.holdsClass p c.keyClass = false then d.answers p tag .denied []
            else if d.isPinned k = true then d.answers p tag .pinned []
            else if 24 < actions.length ∨ 512 < 1 + (actions.map fun a => 4 + a.op.value.length).sum then
              d.answers p tag .limit []
            else (d.setStaging p ⟨.building, actions⟩).answers p tag .ok []))

/-- STAGE_DROP (R54): after checks 1 to 3, NOT_FOUND without an action on the key; else the action leaves, the others
keep their order, and a list left without actions is EMPTY. Neither grant nor pin is tested. STAGE_CLEAR (R55): after
checks 1 and 2 the list is EMPTY, without actions, and the answer is OK; a lawful EMPTY list stays as it was. -/
def Obligations.StageDropsClears : Prop :=
  (∀ (s d : State) (p : Port) (tag : Byte) (key : Word16),
    s.takes p (RequestKind.stageDrop.record tag (bytes16 key)) d →
    let l := d.staging.get p
    let rest := l.actions.filter fun a => a.key ≠ key.toNat
    exec (.stageDrop p tag key) s = .next
      (if (d.session.get p).isOpen = false then d.answers p tag .noSession []
       else if l.state = .queued ∨ l.state = .burning then d.answers p tag .busy []
       else if descriptor? key.toNat = none then d.answers p tag .unknownKey []
       else if ∀ a ∈ l.actions, a.key ≠ key.toNat then d.answers p tag .notFound []
       else (d.setStaging p ⟨if rest = [] then .empty else .building, rest⟩).answers p tag .ok [])) ∧
  ∀ (s d : State) (p : Port) (tag : Byte),
    s.takes p (RequestKind.stageClear.record tag []) d →
    let l := d.staging.get p
    exec (.stageClear p tag) s = .next
      (if (d.session.get p).isOpen = false then d.answers p tag .noSession []
       else if l.state = .queued ∨ l.state = .burning then d.answers p tag .busy []
       else (d.setStaging p ⟨.empty, []⟩).answers p tag .ok []) ∧
    (l.state = .empty → l.lawful → d.setStaging p ⟨.empty, []⟩ = d)

/-- STAGE_LIST (R56, R182): the count, the encoded length and the action at the index, an ASSIGN's op 01h with its value, a
RETIRE's 02h and a KEEP's 03h without one (R180). ABORT (R59): a QUEUED commit leaves the queue, its list is BUILDING and
its record WITHDRAWN, with the generation that the queued job holds; a BURNING one is TOO_LATE, anything else
NOT_FOUND. -/
def Obligations.StageListAndAbort : Prop :=
  ((∀ v, (ActionOp.assign v).code = 0x01 ∧ (ActionOp.assign v).value = v) ∧
   ActionOp.retire.code = 0x02 ∧ ActionOp.retire.value = [] ∧
   ActionOp.keep.code = 0x03 ∧ ActionOp.keep.value = []) ∧
  (∀ (s d : State) (p : Port) (tag index : Byte),
     s.takes p (RequestKind.stageList.record tag [index]) d →
     let l := d.staging.get p
     exec (.stageList p tag index) s = .next
       (if (d.session.get p).isOpen = false then d.answers p tag .noSession []
        else if l.state = .queued ∨ l.state = .burning then d.answers p tag .busy []
        else
          match l.actions[index.toNat]? with
          | none => d.answers p tag .range []
          | some a => d.answers p tag .ok
              (BitVec.ofNat 8 l.actions.length ::
                bytesOfNat 2 (1 + (l.actions.map fun x => 4 + x.op.value.length).sum) ++
                bytesOfNat 2 a.key ++ [BitVec.ofNat 8 (a.op.code + if a.pin then 0x80 else 0)] ++
                valueField a.op.value ++
                match a.guard with
                | .none => [0x00]
                | .equals v => 0x01 :: valueField v
                | .untouched => [0x02]))) ∧
  (∀ (s d : State) (p : Port) (tag : Byte), s.takes p (RequestKind.abort.record tag []) d →
     let l := d.staging.get p
     exec (.abort p tag) s = .next
       (if (d.session.get p).isOpen = false then d.answers p tag .noSession []
        else if l.state = .queued then
          ({ d with
             burnQueue := d.burnQueue.filter (·.port ≠ p)
             staging := d.staging.set p { l with state := .building }
             session := d.session.set p
               { d.session.get p with
                 lastCommit := ⟨.withdrawn, none, none,
                   match d.burnQueue.find? fun (j : Job) => j.port = p with
                   | some j => j.generation
                   | none => (d.session.get p).generation⟩ } }).answers p tag .ok []
        else if l.state = .burning then d.answers p tag .tooLate []
        else d.answers p tag .notFound []))

/-! ### Jobs and runs asked for -/

/-- COMMIT (R57, R58), REVOKE (R95) and REBUILD (R90): the tests in order; then a COMMIT's list is QUEUED, the job joins
the queue at its end with the session's generation and its notice flag set, or the REBUILD is PENDING, and the
arbiter acts (see ArbiterGrants). -/
def Obligations.JobsAccepted : Prop :=
  (∀ (s d : State) (p : Port) (tag : Byte), s.takes p (RequestKind.commit.record tag []) d →
     let l := d.staging.get p
     exec (.commit p tag) s = .next
       (if (d.session.get p).isOpen = false then d.answers p tag .noSession []
        else if (∃ j ∈ d.burnQueue, j.port = p) ∨ (∃ a ∈ d.active, a.job.port = p) ∨
            l.state = .queued ∨ l.state = .burning then
          d.answers p tag .busy []
        else if l.state = .empty then d.answers p tag .empty []
        else
          ({ d with
             staging := d.staging.set p { l with state := .queued }
             burnQueue := d.burnQueue ++ [(⟨p, .commit, (d.session.get p).generation, true⟩ : Job)] }).arbitrate.answers
            p tag .accepted [])) ∧
  ((∀ (s d : State) (p : Port) (tag : Byte) (seq : Word16),
     s.takes p (RequestKind.revoke.record tag (bytes16 seq)) d →
     let l := d.staging.get p
     exec (.revoke p tag seq) s = .next
       (if (d.session.get p).isOpen = false then d.answers p tag .noSession []
        else if seq.toNat = 0 ∨ 256 < seq.toNat then d.answers p tag .range []
        else if (∃ j ∈ d.burnQueue, j.port = p) ∨ (∃ a ∈ d.active, a.job.port = p) ∨
            l.state = .queued ∨ l.state = .burning then
          d.answers p tag .busy []
        else
          ({ d with
             burnQueue := d.burnQueue ++
               [(⟨p, .revoke seq.toNat, (d.session.get p).generation, true⟩ : Job)] }).arbitrate.answers
            p tag .accepted [])) ∧
   ∀ (s d : State) (p : Port) (tag : Byte), s.takes p (RequestKind.rebuild.record tag []) d →
     exec (.rebuild p tag) s = .next
       (if (d.session.get p).isOpen = false then d.answers p tag .noSession []
        else if d.replay ≠ .idle then d.answers p tag .busy []
        else
          ({ d with
             replay := .pending
             requester := some ⟨p, (d.session.get p).generation, true⟩ }).arbitrate.answers
            p tag .accepted []))

/-! ### Overlays -/

/-- OVERLAY_SET (R11, R109, R110): the tests of Table 6-1 in order; then the overlay stands on the key, in place of the
port's own one, and where the effective value changes one report tells of it. With the keys in rising order a record
takes the place of the one on its key or joins in key order, and every other record stays (R107). -/
def Obligations.OverlaySets : Prop :=
  (∀ (s d : State) (p : Port) (tag : Byte) (key lifetime : Word16) (value : Bytes) (bound : Bool),
     (Instr.overlaySet p tag key value lifetime bound).wf = true →
     s.takes p (RequestKind.overlaySet.record tag (overlaySetArgs key value lifetime bound)) d →
     let k := key.toNat
     let cap := d.activeNumber keyOverlayCap
     let old := d.overlays.find? (·.key = k)
     let new : OverlayRecord :=
       { key := k, value := value, ownerPort := p, ownerGeneration := (d.session.get p).generation
         bound := bound, remaining := if lifetime = 0 then none else some lifetime.toNat, due := false }
     exec (.overlaySet p tag key value lifetime bound) s = .next
       (if (d.session.get p).isOpen = false then d.answers p tag .noSession []
        else if d.replay = .rebuilding then d.answers p tag .rebuilding []
        else
          match descriptor? k with
          | none => d.answers p tag .unknownKey []
          | some c =>
            if c.overlayPermitted = false then d.answers p tag .notAllowed []
            else if c.hasForm value = false then d.answers p tag .badLength []
            else if c.inRange value = false then d.answers p tag .range []
            else if d.holdsClass p c.keyClass = false then d.answers p tag .denied []
            else if d.isPinned k = true then d.answers p tag .pinned []
            else if cap ≠ 0 ∧ (lifetime = 0 ∨ cap < lifetime.toNat) then d.answers p tag .range []
            else if ∃ o ∈ old, o.ownerPort ≠ p then d.answers p tag .owned []
            else if old = none ∧ 16 ≤ d.overlays.length then d.answers p tag .limit []
            else
              (({ d with overlays := insertOverlay new d.overlays }).sendReports
                (if d.effectiveValue k = value then []
                 else [⟨k, .effective, .overlaySet, p, none⟩])).answers
                p tag .ok [if old.isSome then 1 else 0])) ∧
  (∀ (o : OverlayRecord) (overlays : List OverlayRecord),
     (overlays.map OverlayRecord.key).Pairwise (· < ·) →
     ((insertOverlay o overlays).map OverlayRecord.key).Pairwise (· < ·) ∧
     ∀ x, x ∈ insertOverlay o overlays ↔ x = o ∨ x ∈ overlays ∧ x.key ≠ o.key)

/-- OVERLAY_CLEAR (R111) and OVERLAY_LIST (R112), whose record count of one byte is the model's choice (log entry
20). -/
def Obligations.OverlayClearList : Prop :=
  (∀ (s d : State) (p : Port) (tag : Byte) (key : Word16),
    s.takes p (RequestKind.overlayClear.record tag (bytes16 key)) d →
    let k := key.toNat
    let after : State := { d with overlays := d.overlays.filter fun o => o.key ≠ k }
    (d.overlays.map OverlayRecord.key).Pairwise (· < ·) →
    exec (.overlayClear p tag key) s = .next
      (if (d.session.get p).isOpen = false then d.answers p tag .noSession []
       else if d.replay = .rebuilding then d.answers p tag .rebuilding []
       else if descriptor? k = none then d.answers p tag .unknownKey []
       else
         match d.overlays.find? (·.key = k) with
         | none => d.answers p tag .notFound []
         | some o =>
           if o.ownerPort ≠ p ∧ d.holdsClass p 7 = false then d.answers p tag .owned []
           else
             (after.sendReports
               (if o.value = d.activeValue k then []
                else [⟨k, .effective, .overlayClear, p, none⟩])).answers p tag .ok [])) ∧
  ∀ (s d : State) (p : Port) (tag index : Byte),
    s.takes p (RequestKind.overlayList.record tag [index]) d →
    exec (.overlayList p tag index) s = .next
      (if (d.session.get p).isOpen = false then d.answers p tag .noSession []
       else
         match d.overlays[index.toNat]? with
         | none => d.answers p tag .range []
         | some o => d.answers p tag .ok
             (BitVec.ofNat 8 d.overlays.length :: bytesOfNat 2 o.key ++ valueField o.value ++
               [BitVec.ofNat 8 o.ownerPort.number, o.ownerGeneration, if o.bound then 1 else 0] ++
               bytesOfNat 2 (o.remaining.getD 0)))

/-- A tick of the Timebase (R113, R175): every remaining count falls by one, a count that reaches 0 makes its record's
removal due (log entry 7), and the acknowledgement timer loses a tick. The overlays whose count has run out leave as
one update: their reports in key order, each with its owner as cause port, where the effective value changes. A tick
that finds removals still due takes them first, then an expiry of the acknowledgement timer still due, and is then the
tick of a part without either (log entry 7), so that no expiry is later than the tick after its own. -/
def Obligations.OverlaysAge : Prop :=
  (let counted (s : State) : State :=
     { s with
       overlays := s.overlays.map fun (o : OverlayRecord) =>
         match o.remaining with
         | none => o
         | some n => if n ≤ 1 then { o with due := true } else { o with remaining := some (n - 1) }
       link :=
         { s.link with
           timer := match s.link.timer with
             | .running left => .running (left - 1)
             | other => other } }
   ∀ s : State, s.resetAsserted = false → (∀ o ∈ s.overlays, o.due = false) →
     (s.link.timer ≠ .running 0 → exec .timebaseTick s = .next (counted s).settle) ∧
     (s.link.timer = .running 0 → ∃ t : State,
       exec .ackTimerExpiry s = .next t ∧ exec .timebaseTick s = .next (counted t).settle)) ∧
  (∀ s : State, s.resetAsserted = false → (s.overlays.map OverlayRecord.key).Pairwise (· < ·) →
     exec .overlayExpired s = .next
       (({ s with overlays := s.overlays.filter fun (o : OverlayRecord) => !o.due }).sendReports
         (List.map (fun (o : OverlayRecord) =>
           ⟨o.key, .effective, .overlayExpired, o.ownerPort, none⟩)
           (s.overlays.filter fun o => o.due && o.value ≠ s.activeValue o.key))).settle) ∧
  (∀ s : State, s.resetAsserted = false → (∃ o ∈ s.overlays, o.due = true) → ∃ t : State,
     exec .overlayExpired s = .next t ∧ (∀ o ∈ t.overlays, o.due = false) ∧
     exec .timebaseTick s = exec .timebaseTick t)

/-! ### Window ports -/

/-- GO (R78, R144, R147, R161 to R163): from any port state but SUBMITTED, with the handler IDLE, the record standing in
the request area is delivered, IDLE and ANSWERED becoming SUBMITTED and ANSWERED counting as a TAKE first; in SUBMITTED
and, with the handler EXECUTING, in STARTING and DISABLED it is ignored and counted. In IDLE and ANSWERED with the
handler EXECUTING, a state no rule gives, it is ignored and counted too: the model's
choice (log entry 16). Within an SPI read transaction no byte is written; what the
byte makes of an SPI write transaction (beforeWrite, afterWrite), WindowBytes says (R159, log entry 8). -/
def Obligations.GoTaken : Prop :=
  ∀ (s : State) (w : WindowPort), s.resetAsserted = false →
    let x := (s.window.get w).beforeWrite 0x01
    let h := s.handler.get w.port
    let length := (x.requestArea.getD 2 0).toNat
    let record : Record :=
      { kind := x.requestArea.getD 0 0, tag := x.requestArea.getD 1 0, argLength := length
        args := (x.requestArea.drop 3).take (min length 60) }
    (strapTransport x.strap ≠ .spi ∨ (s.window.get w).spi ≠ .reading) →
    (x.state ≠ .submitted → h.state = .idle →
      exec (.go w) s = .next
        ((s.setHandler w.port
          { state := .executing, current := some record, abandoned := false, stored := none
            lastTag := h.lastTag
            service :=
              if s.isDisabled w.port = true then .answered ⟨.disabled, record.tag, []⟩
              else if s.replay = .startup then .answered ⟨.starting, record.tag, []⟩
              else if record.request? = none then .answered ⟨.badRequest, record.tag, []⟩
              else .waiting }).setWindow w
          (Window.afterWrite
            { x with
              state := if x.state = .idle ∨ x.state = .answered then .submitted else x.state
              overrun := if x.state = .answered then 0 else x.overrun } 0x01)).settle) ∧
    (x.state = .submitted ∨ h.state = .executing →
      exec (.go w) s = .next
        (s.setWindow w
          (Window.afterWrite
            { x with overrun := if x.overrun < 255 then x.overrun + 1 else x.overrun } 0x01)).settle)

/-- TAKE (R161), PORT_RESET (R124, R146, R164) and a code that names none (R163), outside an SPI read transaction; what
the byte makes of an SPI write transaction (beforeWrite, afterWrite), WindowBytes says (R159, log entry 8). -/
def Obligations.ControlCodesTaken : Prop :=
  ∀ (s : State) (w : WindowPort), s.resetAsserted = false →
    let x := (s.window.get w).beforeWrite 0x01
    let overrun := if x.overrun < 255 then x.overrun + 1 else x.overrun
    let closed := s.endSession w.port
    let h := s.handler.get w.port
    (strapTransport x.strap ≠ .spi ∨ (s.window.get w).spi ≠ .reading) →
    (exec (.take w) s = .next
      (s.setWindow w
        (Window.afterWrite
          { x with
            overrun := if x.state = .submitted then overrun else 0
            state := if x.state = .answered then .idle else x.state } 0x01)).settle) ∧
    (exec (.portReset w) s = .next
      ((closed.setHandler w.port
        (if h.state = .idle then { h with stored := none }
         else { h with abandoned := true, stored := none })).setWindow w
        (Window.afterWrite
          { x with
            overrun := 0, attnEnable := 1
            state := if x.state = .answered then .idle else x.state } 0x01)).settle) ∧
    ∀ code : Byte, code ≠ 0xA1 → code ≠ 0xA2 → code ≠ 0xA7 →
      exec (.unknownControlCode w code) s = .next
        (s.setWindow w (Window.afterWrite { x with overrun := overrun } 0x01)).settle

/-- Bytes at the window (R158 to R161, R163, R165). Written, outside an SPI read transaction: the request area but in
SUBMITTED, where they are counted; the two bits of ATTN_ENABLE; nowhere else; the pointer moves past each, and on SPI
MISO carries 00h. Within an SPI write the bytes land at the pointer: a byte for another offset comes in a transaction
of its own. Within an SPI read the port ignores what the master sends: whatever the master would write, the byte at the
pointer is read. An I2C offset byte sets the pointer whole; an SPI command byte by its low seven bits, its most
significant bit making the transaction a read or a write. A read drives the byte at the pointer, 00h where the map has
none, and moves the pointer on, from FFh to 00h (Table 9-1); in an SPI write a byte reads 00h, and with CS high nothing
is clocked. After each byte of an SPI transaction CS rises where the outside has it so: the transaction is over and
MISO released (log entry 8). The codes of PORT_STATE (R160), and the transport and I2C address that each strap value
selects (R157). -/
def Obligations.WindowBytes : Prop :=
  ([PortState.idle, .submitted, .answered, .starting, .disabled].map PortState.code =
     [0x01, 0x02, 0x03, 0x04, 0x05] ∧
   [StrapPin.vss, .vdd, .pulledDown, .pulledUp, .floating].map strapTransport =
     [.spi, .i2c 0x38, .i2c 0x39, .i2c 0x3A, .i2c 0x3B]) ∧
  ((∀ x : Window, x.endByte =
      if x.spi = .deselected then x
      else
        match x.csRises with
        | [] => x
        | rises :: rest => { x with csRises := rest, spi := if rises then .deselected else x.spi }) ∧
   (∀ x : Window, x.miso = if x.spi = .deselected then none else x.busOut) ∧
   (∀ (x : Window) (offset : Byte), x.beforeWrite offset =
      if x.spi = .writing ∧ x.pointer ≠ offset then { x with spi := .deselected } else x) ∧
   ∀ (x : Window) (offset : Byte), x.afterWrite offset =
      Window.endByte
        { x with
          pointer := offset + 1
          busOut := if strapTransport x.strap = .spi then some 0 else x.busOut }) ∧
  ∀ (s : State) (w : WindowPort), s.resetAsserted = false →
    let x := s.window.get w
    let spi : Prop := strapTransport x.strap = .spi
    let read : State :=
      s.setWindow w
        (Window.endByte
          { x with
            pointer := x.pointer + 1
            busOut := some
              (if x.pointer = 0x00 then x.state.code
               else if x.pointer = 0x02 then x.attnEnable
               else if x.pointer = 0x03 then BitVec.ofNat 8 x.overrun
               else if 0x10 ≤ x.pointer.toNat ∧ x.pointer.toNat ≤ 0x4F then
                 x.requestArea.getD (x.pointer.toNat - 0x10) 0
               else if 0x50 ≤ x.pointer.toNat ∧ x.pointer.toNat ≤ 0x8F then
                 x.responseArea.getD (x.pointer.toNat - 0x50) 0
               else 0) })
    (∀ (offset data : Byte), ¬spi ∨ x.spi ≠ .reading →
      let y := x.beforeWrite offset
      (0x10 ≤ offset.toNat → offset.toNat ≤ 0x4F →
        exec (.requestAreaWrite w offset data) s = .next
          (s.setWindow w
            (Window.afterWrite
              (if x.state = .submitted then
                { y with overrun := if x.overrun < 255 then x.overrun + 1 else x.overrun }
               else { y with requestArea := x.requestArea.set (offset.toNat - 0x10) data }) offset)).settle) ∧
      (offset = 0x02 →
        exec (.attnEnableWrite w data) s = .next
          (s.setWindow w (Window.afterWrite { y with attnEnable := data &&& 0x03 } offset)).settle) ∧
      (offset ≠ 0x01 → offset ≠ 0x02 → offset.toNat < 0x10 ∨ 0x4F < offset.toNat →
        exec (.windowWriteIgnored w offset data) s = .next
          (s.setWindow w (y.afterWrite offset)).settle)) ∧
    (spi → x.spi = .reading → ∀ (c : Instr) (offset data : Byte),
      c ∈ [Instr.go w, .take w, .portReset w, .unknownControlCode w data, .requestAreaWrite w offset data,
        .attnEnableWrite w data, .windowWriteIgnored w offset data, .windowByteRead w] →
      exec c s = .next read.settle) ∧
    (∀ b : Byte,
      (spi → exec (.windowPointerSet w b) s = .next
        (s.setWindow w
          (Window.endByte
            { x with
              pointer := b &&& 0x7F, busOut := some 0
              spi := if b.toNat < 0x80 then .writing else .reading })).settle) ∧
      (¬spi → exec (.windowPointerSet w b) s = .next (s.setWindow w { x with pointer := b }).settle)) ∧
    (¬spi → exec (.windowByteRead w) s = .next read.settle) ∧
    (spi → x.spi = .writing →
      exec (.windowByteRead w) s = .next (s.setWindow w { x with busOut := some 0 }).settle) ∧
    (spi → x.spi = .deselected → exec (.windowByteRead w) s = .next s.settle)

/-! ### The sideband link -/

/-- A REQ frame (R143, R144, R147, R169 to R174): the stored response again for its own tag, BUSY while the handler is
EXECUTING, else the record delivered with any pending answer ended. The engine takes a frame from IDLE, from TURN
(a collision where it had a frame to send) and in RX, and enters TURN; elsewhere it takes none (log entries 8 and 11).
The link buffer beyond the frame keeps what it held (the model's choice, log entry 10). -/
def Obligations.ReqTaken : Prop :=
  ∀ (s : State) (tag kind : Byte) (args : Bytes), s.resetAsserted = false → args.length ≤ 60 →
    let h := s.handler.get .port2
    let record : Record := { kind := kind, tag := tag, argLength := args.length, args := args }
    let link (pending : Option PendingAnswer) : Link :=
      { s.link with
        state := .turn, pending := pending
        collisions :=
          if s.link.state = .turn ∧ s.sendable = true ∧ s.link.collisions < 65535 then
            s.link.collisions + 1
          else s.link.collisions
        buffer := loadBuffer s.link.buffer (frameBytes .req tag kind args), rxBits := [] }
    (s.link.state ∈ [LinkState.idle, .turn, .rx] →
      exec (.req tag kind args) s = .next
        (if h.stored.isSome = true ∧ h.lastTag = tag then s.setLink (link (some .response))
         else if h.state = .executing then s.setLink (link (some (.busy tag)))
         else
           (s.setHandler .port2
             { state := .executing, current := some record, abandoned := false, stored := none
               lastTag := tag
               service :=
                 if s.isDisabled .port2 = true then .answered ⟨.disabled, tag, []⟩
                 else if s.replay = .startup then .answered ⟨.starting, tag, []⟩
                 else if record.request? = none then .answered ⟨.badRequest, tag, []⟩
                 else .waiting }).setLink (link none)).settle) ∧
    (s.link.state ∉ [LinkState.idle, .turn, .rx] → exec (.req tag kind args) s = .next s.settle)

/-- ACK and RESET frames (R138, R139, R146, R175, R176). An ACK with the tag of a head marked sent removes the head,
or gives a marker that counted arrivals since its send that count and the next tag, stops the timer and clears the
send count; any other changes nothing. A RESET ends the session, drops the stored response and a pending answer, and
abandons a request in service. The engine takes a frame with the frame's own start mark, from IDLE, from TURN (a
collision where it had a frame to send, R174) and in RX, and enters TURN (R170); in TX, in OFF and on a held line it
takes none (log entries 8 and 11).
The link buffer beyond the frame keeps what it held (the model's choice, log entry 10). -/
def Obligations.AckResetTaken : Prop :=
  (∀ (s : State) (tag code : Byte), s.resetAsserted = false →
    s.link.state ∈ [LinkState.idle, .turn, .rx] →
    let u := s.session.get .port2
    let framed (type : FrameType) : State :=
      s.setLink
        { s.link with
          state := .turn
          collisions :=
            if s.link.state = .turn ∧ s.sendable = true ∧ s.link.collisions < 65535 then
              s.link.collisions + 1
            else s.link.collisions
          buffer := loadBuffer s.link.buffer (frameBytes type tag code []), rxBits := [] }
    let acked := framed .ack
    let reset := (framed .reset).endSession .port2
    let h := s.handler.get .port2
    (∀ (head : Notice) (rest : List Notice), u.queue = head :: rest → u.isOpen = true →
      u.headSent = true → head.tag = tag →
      exec (.ack tag code) s = .next
        ((acked.setSession .port2
          (if head.isMarker = true ∧ u.lateCount ≠ 0 then
            { u with
              queue := ⟨u.tagCounter + 1, .noticesLost u.lateCount⟩ :: rest
              tagCounter := u.tagCounter + 1, headSent := false, lateCount := 0 }
           else { u with queue := rest, headSent := false, lateCount := 0 })).setLink
          { acked.link with timer := .stopped, sendCount := 0 }).settle) ∧
    ((u.isOpen = false ∨ u.headSent = false ∨ ∀ head ∈ u.queue.head?, head.tag ≠ tag) →
      exec (.ack tag code) s = .next acked.settle) ∧
    exec (.resetFrame tag code) s = .next
      ((reset.setHandler .port2
        (if h.state = .idle then { h with stored := none }
         else { h with abandoned := true, stored := none })).setLink
        { reset.link with pending := none }).settle) ∧
  ∀ (s : State) (tag code : Byte), s.resetAsserted = false →
    s.link.state ∉ [LinkState.idle, .turn, .rx] →
    exec (.ack tag code) s = .next s.settle ∧ exec (.resetFrame tag code) s = .next s.settle

/-- A frame that R169 discards is counted and changes nothing else; an RSP, NOTE or BUSY from the partner is ignored; the
engine enters TURN, or stays in RX where a start mark ended the frame (R168 to R170). Like every frame it begins with
its own start mark (log entry 8). A start mark takes IDLE and TURN to RX, as a collision where TURN had a frame to send
(R174), and in RX discards the frame so far; in TX, in OFF and on a held line none is taken (log entry 11). Other lows
do nothing outside RX. Within RX a glitch does nothing, a bit joins the frame, a violation discards it, and an end mark
ends it: on a byte boundary with what the command of that whole frame does, off it as discarded (R168; a low of exactly
a boundary's length belongs to the longer class, and 5 ms is still a violation, log entry 9).
What the link buffer holds of a discarded frame and of the bits so far, and beyond them, is the model's choice (log
entry 10). -/
def Obligations.LineTaken : Prop :=
  (∀ (s : State) (bytes : Bytes) (ending : FrameEnd), s.resetAsserted = false →
     (Instr.frameDiscarded bytes ending).wf = true →
     (s.link.state ∈ [LinkState.idle, .turn, .rx] →
       let ignored : Bool := ending = .endMark && (readFrame bytes).isSome
       exec (.frameDiscarded bytes ending) s = .next
         (s.setLink
           { s.link with
             state := if ending = .startMark then .rx else .turn
             crcErrors :=
               if ignored = false ∧ s.link.crcErrors < 65535 then s.link.crcErrors + 1
               else s.link.crcErrors
             collisions :=
               if s.link.state = .turn ∧ s.sendable = true ∧ s.link.collisions < 65535 then
                 s.link.collisions + 1
               else s.link.collisions
             buffer := loadBuffer s.link.buffer bytes, rxBits := [] }).settle) ∧
     (s.link.state ∉ [LinkState.idle, .turn, .rx] →
       exec (.frameDiscarded bytes ending) s = .next s.settle)) ∧
  (∀ s : State, s.resetAsserted = false →
     let crc := if s.link.crcErrors < 65535 then s.link.crcErrors + 1 else s.link.crcErrors
     let collisions := if s.link.collisions < 65535 then s.link.collisions + 1 else s.link.collisions
     let discarded := (s.setLink { s.link with crcErrors := crc, state := .turn, rxBits := [] }).settle
     (exec .startMark s = .next
       (match s.link.state with
        | .idle => s.setLink { s.link with state := .rx, rxBits := [] }
        | .turn => s.setLink
            { s.link with
              state := .rx, rxBits := []
              collisions := if s.sendable = true then collisions else s.link.collisions }
        | .rx => s.setLink { s.link with crcErrors := crc, rxBits := [] }
        | _ => s).settle) ∧
     ∀ ns : Nat, (Instr.preambleOrNoise ns).wf = true →
       (s.link.state ≠ .rx ∨ ns < 500 → exec (.preambleOrNoise ns) s = .next s.settle) ∧
       (s.link.state = .rx → 500 ≤ ns → ns < 11000 →
         let bits := s.link.rxBits ++ [decide (4000 ≤ ns)]
         exec (.preambleOrNoise ns) s = .next
           (s.setLink
             { s.link with
               rxBits := bits, buffer := loadBuffer s.link.buffer (bytesOfBits bits) }).settle) ∧
       (s.link.state = .rx → 11000 ≤ ns → ns < 19000 →
         exec (.preambleOrNoise ns) s =
           if s.link.rxBits.length % 8 ≠ 0 then .next discarded
           else
             match readFrame (bytesOfBits s.link.rxBits) with
             | some (.req, tag, kind, args) => exec (.req tag kind args) s
             | some (.ack, tag, code, _) => exec (.ack tag code) s
             | some (.reset, tag, code, _) => exec (.resetFrame tag code) s
             | _ => exec (.frameDiscarded (bytesOfBits s.link.rxBits) .endMark) s) ∧
       (s.link.state = .rx → 32000 ≤ ns → exec (.preambleOrNoise ns) s = .next discarded))

/-- The turnaround ends (R138, R139, R170, R173, R175): the pending answer goes first, then a ready NOTE, whose head is
marked sent, else the link is IDLE; in no other state than TURN does it end. A sent frame's end mark completes (R12,
R172): an answer still pending is done with; after a NOTE the send count rises and the timer starts with the latched
window; after a NOTE whose session ended while it was in TX no timer starts (R175), and that the send count does not rise
either is the model's choice (log entry 23); outside TX there is none (log entry 3). The codes and bodies of a NOTE are spelled out by NoticeReadAnswers, the
status codes of an RSP by AnswerHandedOver, the types of a frame by FramesRead.
The link buffer beyond the frame loaded keeps what it held (the model's choice, log entry 10). -/
def Obligations.LinkSends : Prop :=
  (∀ s : State, s.resetAsserted = false →
     let u := s.session.get .port2
     let send (sending : Sending) (bytes : Bytes) : Link :=
       { s.link with
         state := .tx, sending := some sending, buffer := loadBuffer s.link.buffer bytes }
     (s.link.state ≠ .turn → exec .turnaroundComplete s = .next s.settle) ∧
     (s.link.state = .turn →
       (∀ r, s.link.pending = some .response → (s.handler.get .port2).stored = some r →
         exec .turnaroundComplete s = .next
           (s.setLink (send .response (frameBytes .rsp r.tag r.status.code r.data))).settle) ∧
       (∀ tag, s.link.pending = some (.busy tag) →
         exec .turnaroundComplete s = .next
           (s.setLink (send (.busy tag) (frameBytes .busy tag 0 []))).settle) ∧
       (∀ (n : Notice) (rest : List Notice), s.link.pending = none → u.queue = n :: rest → u.isOpen = true →
         (u.headSent = false ∨ s.link.timer = .expired ∧ s.link.sendCount < 4) →
         exec .turnaroundComplete s = .next
           ((s.setSession .port2 { u with headSent := true, lateCount := 0 }).setLink
             (send (.note true) (frameBytes .note n.tag n.body.code n.body.bytes))).settle) ∧
       (s.link.pending = none →
         (u.isOpen = false ∨ u.queue = [] ∨
           u.headSent = true ∧ ¬(s.link.timer = .expired ∧ s.link.sendCount < 4)) →
         exec .turnaroundComplete s = .next (s.setLink { s.link with state := .idle }).settle))) ∧
  (∀ s : State, s.resetAsserted = false →
     (s.link.state ≠ .tx → exec .frameSendComplete s = .next s.settle) ∧
     (s.link.state = .tx →
       (s.link.sending = some .response →
         exec .frameSendComplete s = .next
           (s.setLink
             { s.link with
               state := .turn, sending := none
               pending := if s.link.pending = some .response then none else s.link.pending }).settle) ∧
       (∀ tag, s.link.sending = some (.busy tag) →
         exec .frameSendComplete s = .next
           (s.setLink
             { s.link with
               state := .turn, sending := none
               pending := if s.link.pending = some (.busy tag) then none else s.link.pending }).settle) ∧
       (s.link.sending = some (.note true) →
         exec .frameSendComplete s = .next
           (s.setLink
             { s.link with
               state := .turn, sending := none, sendCount := s.link.sendCount + 1
               timer := .running (s.link.ackWindow.getD 0) }).settle) ∧
       (s.link.sending = some (.note false) →
         exec .frameSendComplete s = .next
           (s.setLink { s.link with state := .turn, sending := none }).settle)))

/-- Link loss (R126, R146, R177): counted, the pending answer and the frame in TX dropped, the session ended, a request in
service abandoned. A held line raises it once, and its release leads to IDLE; so does the expiry of the timer after
the fourth send, while an earlier expiry readies the NOTE again (R175). The held line's own state is the model's (log
entry 11), and so is that an expiry with the timer not at 0 and a release of a line not held change nothing (log
entry 3). -/
def Obligations.LinkLost : Prop :=
  ∀ s : State, s.resetAsserted = false →
    let h := s.handler.get .port2
    let lose (next : LinkState) : State :=
      ((s.setLink
        { s.link with
          losses := if s.link.losses < 65535 then s.link.losses + 1 else s.link.losses
          pending := none, sending := none, state := next, rxBits := [] }).setHandler .port2
        (if h.state = .idle then { h with stored := none }
         else { h with abandoned := true, stored := none })).endSession .port2
    (s.link.state ≠ .off → s.link.state ≠ .heldLow →
      exec .linkLoss s = .next (lose .heldLow).settle) ∧
    (s.link.state = .off ∨ s.link.state = .heldLow → exec .linkLoss s = .next s.settle) ∧
    (s.link.timer = .running 0 → s.link.sendCount < 4 →
      exec .ackTimerExpiry s = .next (s.setLink { s.link with timer := .expired }).settle) ∧
    (s.link.timer = .running 0 → 4 ≤ s.link.sendCount →
      exec .ackTimerExpiry s = .next (lose .idle).settle) ∧
    (s.link.timer ≠ .running 0 → exec .ackTimerExpiry s = .next s.settle) ∧
    (s.link.state = .heldLow →
      exec .linkLineReleased s = .next (s.setLink { s.link with state := .idle }).settle) ∧
    (s.link.state ≠ .heldLow → exec .linkLineReleased s = .next s.settle)
end

