-- ==== Sys2Proof/Laws/State.lean ====
section
/-! SUPPORT. One lemma per field of State and update of it, and the reads of a per-port item after a write. -/

namespace Sys2Proof.Machine

/-! ### Items per port -/

@[simp] theorem PerPort.get_set_self {α : Type} (x : PerPort α) (p : Port) (v : α) :
    (x.set p v).get p = v := by cases p <;> rfl

theorem PerPort.get_set {α : Type} (x : PerPort α) (p q : Port) (v : α) :
    (x.set p v).get q = if q = p then v else x.get q := by cases p <;> cases q <;> rfl

@[simp] theorem PerPort.get_set_of_ne {α : Type} (x : PerPort α) {p q : Port} (v : α) (h : q ≠ p) :
    (x.set p v).get q = x.get q := by rw [PerPort.get_set, if_neg h]

@[simp] theorem PerPort.set_set {α : Type} (x : PerPort α) (p : Port) (v w : α) :
    (x.set p v).set p w = x.set p w := by cases p <;> rfl

@[simp] theorem PerPort.set_get {α : Type} (x : PerPort α) (p : Port) : x.set p (x.get p) = x := by
  cases p <;> rfl

@[simp] theorem PerPort.get_map {α : Type} (f : Port → α → α) (x : PerPort α) (p : Port) :
    (x.map f).get p = f p (x.get p) := by cases p <;> rfl

@[simp] theorem PerWindow.get_set_self {α : Type} (x : PerWindow α) (w : WindowPort) (v : α) :
    (x.set w v).get w = v := by cases w <;> rfl

theorem PerWindow.get_set {α : Type} (x : PerWindow α) (w y : WindowPort) (v : α) :
    (x.set w v).get y = if y = w then v else x.get y := by cases w <;> cases y <;> rfl

@[simp] theorem PerWindow.get_set_of_ne {α : Type} (x : PerWindow α) {w y : WindowPort} (v : α)
    (h : y ≠ w) : (x.set w v).get y = x.get y := by rw [PerWindow.get_set, if_neg h]

@[simp] theorem PerWindow.set_set {α : Type} (x : PerWindow α) (w : WindowPort) (u v : α) :
    (x.set w u).set w v = x.set w v := by cases w <;> rfl

@[simp] theorem PerWindow.set_get {α : Type} (x : PerWindow α) (w : WindowPort) :
    x.set w (x.get w) = x := by cases w <;> rfl

@[simp] theorem windowOf_port (w : WindowPort) : windowOf w.port = some w := by cases w <;> rfl

/-! ### One field after one update -/

section
variable (s : State)

@[simp] theorem State.setSession_array (p : Port) (x : Session) : (s.setSession p x).array = s.array := rfl
@[simp] theorem State.setSession_bodyTop (p : Port) (x : Session) : (s.setSession p x).bodyTop = s.bodyTop := rfl
@[simp] theorem State.setSession_slotsUsed (p : Port) (x : Session) : (s.setSession p x).slotsUsed = s.slotsUsed := rfl
@[simp] theorem State.setSession_index (p : Port) (x : Session) : (s.setSession p x).index = s.index := rfl
@[simp] theorem State.setSession_journal (p : Port) (x : Session) : (s.setSession p x).journal = s.journal := rfl
@[simp] theorem State.setSession_counts (p : Port) (x : Session) : (s.setSession p x).counts = s.counts := rfl
@[simp] theorem State.setSession_grant (p : Port) (x : Session) : (s.setSession p x).grant = s.grant := rfl
@[simp] theorem State.setSession_table (p : Port) (x : Session) : (s.setSession p x).table = s.table := rfl
@[simp] theorem State.setSession_overlays (p : Port) (x : Session) : (s.setSession p x).overlays = s.overlays := rfl
@[simp] theorem State.setSession_burnQueue (p : Port) (x : Session) : (s.setSession p x).burnQueue = s.burnQueue := rfl
@[simp] theorem State.setSession_writer (p : Port) (x : Session) : (s.setSession p x).writer = s.writer := rfl
@[simp] theorem State.setSession_active (p : Port) (x : Session) : (s.setSession p x).active = s.active := rfl
@[simp] theorem State.setSession_replay (p : Port) (x : Session) : (s.setSession p x).replay = s.replay := rfl
@[simp] theorem State.setSession_requester (p : Port) (x : Session) : (s.setSession p x).requester = s.requester := rfl
@[simp] theorem State.setSession_working (p : Port) (x : Session) : (s.setSession p x).working = s.working := rfl
@[simp] theorem State.setSession_staging (p : Port) (x : Session) : (s.setSession p x).staging = s.staging := rfl
@[simp] theorem State.setSession_session (p : Port) (x : Session) : (s.setSession p x).session = s.session.set p x := rfl
@[simp] theorem State.setSession_handler (p : Port) (x : Session) : (s.setSession p x).handler = s.handler := rfl
@[simp] theorem State.setSession_window (p : Port) (x : Session) : (s.setSession p x).window = s.window := rfl
@[simp] theorem State.setSession_link (p : Port) (x : Session) : (s.setSession p x).link = s.link := rfl
@[simp] theorem State.setSession_portEnable (p : Port) (x : Session) : (s.setSession p x).portEnable = s.portEnable := rfl
@[simp] theorem State.setSession_burnEn (p : Port) (x : Session) : (s.setSession p x).burnEn = s.burnEn := rfl
@[simp] theorem State.setSession_resetAsserted (p : Port) (x : Session) : (s.setSession p x).resetAsserted = s.resetAsserted := rfl
@[simp] theorem State.setSession_pending (p : Port) (x : Session) : (s.setSession p x).pending = s.pending := rfl
@[simp] theorem State.setSession_pauses (p : Port) (x : Session) : (s.setSession p x).pauses = s.pauses := rfl

@[simp] theorem State.setStaging_array (p : Port) (x : StagingList) : (s.setStaging p x).array = s.array := rfl
@[simp] theorem State.setStaging_bodyTop (p : Port) (x : StagingList) : (s.setStaging p x).bodyTop = s.bodyTop := rfl
@[simp] theorem State.setStaging_slotsUsed (p : Port) (x : StagingList) : (s.setStaging p x).slotsUsed = s.slotsUsed := rfl
@[simp] theorem State.setStaging_index (p : Port) (x : StagingList) : (s.setStaging p x).index = s.index := rfl
@[simp] theorem State.setStaging_journal (p : Port) (x : StagingList) : (s.setStaging p x).journal = s.journal := rfl
@[simp] theorem State.setStaging_counts (p : Port) (x : StagingList) : (s.setStaging p x).counts = s.counts := rfl
@[simp] theorem State.setStaging_grant (p : Port) (x : StagingList) : (s.setStaging p x).grant = s.grant := rfl
@[simp] theorem State.setStaging_table (p : Port) (x : StagingList) : (s.setStaging p x).table = s.table := rfl
@[simp] theorem State.setStaging_overlays (p : Port) (x : StagingList) : (s.setStaging p x).overlays = s.overlays := rfl
@[simp] theorem State.setStaging_burnQueue (p : Port) (x : StagingList) : (s.setStaging p x).burnQueue = s.burnQueue := rfl
@[simp] theorem State.setStaging_writer (p : Port) (x : StagingList) : (s.setStaging p x).writer = s.writer := rfl
@[simp] theorem State.setStaging_active (p : Port) (x : StagingList) : (s.setStaging p x).active = s.active := rfl
@[simp] theorem State.setStaging_replay (p : Port) (x : StagingList) : (s.setStaging p x).replay = s.replay := rfl
@[simp] theorem State.setStaging_requester (p : Port) (x : StagingList) : (s.setStaging p x).requester = s.requester := rfl
@[simp] theorem State.setStaging_working (p : Port) (x : StagingList) : (s.setStaging p x).working = s.working := rfl
@[simp] theorem State.setStaging_staging (p : Port) (x : StagingList) : (s.setStaging p x).staging = s.staging.set p x := rfl
@[simp] theorem State.setStaging_session (p : Port) (x : StagingList) : (s.setStaging p x).session = s.session := rfl
@[simp] theorem State.setStaging_handler (p : Port) (x : StagingList) : (s.setStaging p x).handler = s.handler := rfl
@[simp] theorem State.setStaging_window (p : Port) (x : StagingList) : (s.setStaging p x).window = s.window := rfl
@[simp] theorem State.setStaging_link (p : Port) (x : StagingList) : (s.setStaging p x).link = s.link := rfl
@[simp] theorem State.setStaging_portEnable (p : Port) (x : StagingList) : (s.setStaging p x).portEnable = s.portEnable := rfl
@[simp] theorem State.setStaging_burnEn (p : Port) (x : StagingList) : (s.setStaging p x).burnEn = s.burnEn := rfl
@[simp] theorem State.setStaging_resetAsserted (p : Port) (x : StagingList) : (s.setStaging p x).resetAsserted = s.resetAsserted := rfl
@[simp] theorem State.setStaging_pending (p : Port) (x : StagingList) : (s.setStaging p x).pending = s.pending := rfl
@[simp] theorem State.setStaging_pauses (p : Port) (x : StagingList) : (s.setStaging p x).pauses = s.pauses := rfl

@[simp] theorem State.setHandler_array (p : Port) (x : Handler) : (s.setHandler p x).array = s.array := rfl
@[simp] theorem State.setHandler_bodyTop (p : Port) (x : Handler) : (s.setHandler p x).bodyTop = s.bodyTop := rfl
@[simp] theorem State.setHandler_slotsUsed (p : Port) (x : Handler) : (s.setHandler p x).slotsUsed = s.slotsUsed := rfl
@[simp] theorem State.setHandler_index (p : Port) (x : Handler) : (s.setHandler p x).index = s.index := rfl
@[simp] theorem State.setHandler_journal (p : Port) (x : Handler) : (s.setHandler p x).journal = s.journal := rfl
@[simp] theorem State.setHandler_counts (p : Port) (x : Handler) : (s.setHandler p x).counts = s.counts := rfl
@[simp] theorem State.setHandler_grant (p : Port) (x : Handler) : (s.setHandler p x).grant = s.grant := rfl
@[simp] theorem State.setHandler_table (p : Port) (x : Handler) : (s.setHandler p x).table = s.table := rfl
@[simp] theorem State.setHandler_overlays (p : Port) (x : Handler) : (s.setHandler p x).overlays = s.overlays := rfl
@[simp] theorem State.setHandler_burnQueue (p : Port) (x : Handler) : (s.setHandler p x).burnQueue = s.burnQueue := rfl
@[simp] theorem State.setHandler_writer (p : Port) (x : Handler) : (s.setHandler p x).writer = s.writer := rfl
@[simp] theorem State.setHandler_active (p : Port) (x : Handler) : (s.setHandler p x).active = s.active := rfl
@[simp] theorem State.setHandler_replay (p : Port) (x : Handler) : (s.setHandler p x).replay = s.replay := rfl
@[simp] theorem State.setHandler_requester (p : Port) (x : Handler) : (s.setHandler p x).requester = s.requester := rfl
@[simp] theorem State.setHandler_working (p : Port) (x : Handler) : (s.setHandler p x).working = s.working := rfl
@[simp] theorem State.setHandler_staging (p : Port) (x : Handler) : (s.setHandler p x).staging = s.staging := rfl
@[simp] theorem State.setHandler_session (p : Port) (x : Handler) : (s.setHandler p x).session = s.session := rfl
@[simp] theorem State.setHandler_handler (p : Port) (x : Handler) : (s.setHandler p x).handler = s.handler.set p x := rfl
@[simp] theorem State.setHandler_window (p : Port) (x : Handler) : (s.setHandler p x).window = s.window := rfl
@[simp] theorem State.setHandler_link (p : Port) (x : Handler) : (s.setHandler p x).link = s.link := rfl
@[simp] theorem State.setHandler_portEnable (p : Port) (x : Handler) : (s.setHandler p x).portEnable = s.portEnable := rfl
@[simp] theorem State.setHandler_burnEn (p : Port) (x : Handler) : (s.setHandler p x).burnEn = s.burnEn := rfl
@[simp] theorem State.setHandler_resetAsserted (p : Port) (x : Handler) : (s.setHandler p x).resetAsserted = s.resetAsserted := rfl
@[simp] theorem State.setHandler_pending (p : Port) (x : Handler) : (s.setHandler p x).pending = s.pending := rfl
@[simp] theorem State.setHandler_pauses (p : Port) (x : Handler) : (s.setHandler p x).pauses = s.pauses := rfl

@[simp] theorem State.setWindow_array (w : WindowPort) (x : Window) : (s.setWindow w x).array = s.array := rfl
@[simp] theorem State.setWindow_bodyTop (w : WindowPort) (x : Window) : (s.setWindow w x).bodyTop = s.bodyTop := rfl
@[simp] theorem State.setWindow_slotsUsed (w : WindowPort) (x : Window) : (s.setWindow w x).slotsUsed = s.slotsUsed := rfl
@[simp] theorem State.setWindow_index (w : WindowPort) (x : Window) : (s.setWindow w x).index = s.index := rfl
@[simp] theorem State.setWindow_journal (w : WindowPort) (x : Window) : (s.setWindow w x).journal = s.journal := rfl
@[simp] theorem State.setWindow_counts (w : WindowPort) (x : Window) : (s.setWindow w x).counts = s.counts := rfl
@[simp] theorem State.setWindow_grant (w : WindowPort) (x : Window) : (s.setWindow w x).grant = s.grant := rfl
@[simp] theorem State.setWindow_table (w : WindowPort) (x : Window) : (s.setWindow w x).table = s.table := rfl
@[simp] theorem State.setWindow_overlays (w : WindowPort) (x : Window) : (s.setWindow w x).overlays = s.overlays := rfl
@[simp] theorem State.setWindow_burnQueue (w : WindowPort) (x : Window) : (s.setWindow w x).burnQueue = s.burnQueue := rfl
@[simp] theorem State.setWindow_writer (w : WindowPort) (x : Window) : (s.setWindow w x).writer = s.writer := rfl
@[simp] theorem State.setWindow_active (w : WindowPort) (x : Window) : (s.setWindow w x).active = s.active := rfl
@[simp] theorem State.setWindow_replay (w : WindowPort) (x : Window) : (s.setWindow w x).replay = s.replay := rfl
@[simp] theorem State.setWindow_requester (w : WindowPort) (x : Window) : (s.setWindow w x).requester = s.requester := rfl
@[simp] theorem State.setWindow_working (w : WindowPort) (x : Window) : (s.setWindow w x).working = s.working := rfl
@[simp] theorem State.setWindow_staging (w : WindowPort) (x : Window) : (s.setWindow w x).staging = s.staging := rfl
@[simp] theorem State.setWindow_session (w : WindowPort) (x : Window) : (s.setWindow w x).session = s.session := rfl
@[simp] theorem State.setWindow_handler (w : WindowPort) (x : Window) : (s.setWindow w x).handler = s.handler := rfl
@[simp] theorem State.setWindow_window (w : WindowPort) (x : Window) : (s.setWindow w x).window = s.window.set w x := rfl
@[simp] theorem State.setWindow_link (w : WindowPort) (x : Window) : (s.setWindow w x).link = s.link := rfl
@[simp] theorem State.setWindow_portEnable (w : WindowPort) (x : Window) : (s.setWindow w x).portEnable = s.portEnable := rfl
@[simp] theorem State.setWindow_burnEn (w : WindowPort) (x : Window) : (s.setWindow w x).burnEn = s.burnEn := rfl
@[simp] theorem State.setWindow_resetAsserted (w : WindowPort) (x : Window) : (s.setWindow w x).resetAsserted = s.resetAsserted := rfl
@[simp] theorem State.setWindow_pending (w : WindowPort) (x : Window) : (s.setWindow w x).pending = s.pending := rfl
@[simp] theorem State.setWindow_pauses (w : WindowPort) (x : Window) : (s.setWindow w x).pauses = s.pauses := rfl

@[simp] theorem State.setLink_array (x : Link) : (s.setLink x).array = s.array := rfl
@[simp] theorem State.setLink_bodyTop (x : Link) : (s.setLink x).bodyTop = s.bodyTop := rfl
@[simp] theorem State.setLink_slotsUsed (x : Link) : (s.setLink x).slotsUsed = s.slotsUsed := rfl
@[simp] theorem State.setLink_index (x : Link) : (s.setLink x).index = s.index := rfl
@[simp] theorem State.setLink_journal (x : Link) : (s.setLink x).journal = s.journal := rfl
@[simp] theorem State.setLink_counts (x : Link) : (s.setLink x).counts = s.counts := rfl
@[simp] theorem State.setLink_grant (x : Link) : (s.setLink x).grant = s.grant := rfl
@[simp] theorem State.setLink_table (x : Link) : (s.setLink x).table = s.table := rfl
@[simp] theorem State.setLink_overlays (x : Link) : (s.setLink x).overlays = s.overlays := rfl
@[simp] theorem State.setLink_burnQueue (x : Link) : (s.setLink x).burnQueue = s.burnQueue := rfl
@[simp] theorem State.setLink_writer (x : Link) : (s.setLink x).writer = s.writer := rfl
@[simp] theorem State.setLink_active (x : Link) : (s.setLink x).active = s.active := rfl
@[simp] theorem State.setLink_replay (x : Link) : (s.setLink x).replay = s.replay := rfl
@[simp] theorem State.setLink_requester (x : Link) : (s.setLink x).requester = s.requester := rfl
@[simp] theorem State.setLink_working (x : Link) : (s.setLink x).working = s.working := rfl
@[simp] theorem State.setLink_staging (x : Link) : (s.setLink x).staging = s.staging := rfl
@[simp] theorem State.setLink_session (x : Link) : (s.setLink x).session = s.session := rfl
@[simp] theorem State.setLink_handler (x : Link) : (s.setLink x).handler = s.handler := rfl
@[simp] theorem State.setLink_window (x : Link) : (s.setLink x).window = s.window := rfl
@[simp] theorem State.setLink_link (x : Link) : (s.setLink x).link = x := rfl
@[simp] theorem State.setLink_portEnable (x : Link) : (s.setLink x).portEnable = s.portEnable := rfl
@[simp] theorem State.setLink_burnEn (x : Link) : (s.setLink x).burnEn = s.burnEn := rfl
@[simp] theorem State.setLink_resetAsserted (x : Link) : (s.setLink x).resetAsserted = s.resetAsserted := rfl
@[simp] theorem State.setLink_pending (x : Link) : (s.setLink x).pending = s.pending := rfl
@[simp] theorem State.setLink_pauses (x : Link) : (s.setLink x).pauses = s.pauses := rfl

@[simp] theorem State.burning_array (step : WriterState) (a : ActiveJob) (todo : List (Nat × Byte)) (pulses : Nat) :
    (s.burning step a todo pulses).array = s.array := rfl
@[simp] theorem State.burning_bodyTop (step : WriterState) (a : ActiveJob) (todo : List (Nat × Byte)) (pulses : Nat) :
    (s.burning step a todo pulses).bodyTop = s.bodyTop := rfl
@[simp] theorem State.burning_slotsUsed (step : WriterState) (a : ActiveJob) (todo : List (Nat × Byte)) (pulses : Nat) :
    (s.burning step a todo pulses).slotsUsed = s.slotsUsed := rfl
@[simp] theorem State.burning_index (step : WriterState) (a : ActiveJob) (todo : List (Nat × Byte)) (pulses : Nat) :
    (s.burning step a todo pulses).index = s.index := rfl
@[simp] theorem State.burning_journal (step : WriterState) (a : ActiveJob) (todo : List (Nat × Byte)) (pulses : Nat) :
    (s.burning step a todo pulses).journal = s.journal := rfl
@[simp] theorem State.burning_counts (step : WriterState) (a : ActiveJob) (todo : List (Nat × Byte)) (pulses : Nat) :
    (s.burning step a todo pulses).counts = s.counts := rfl
@[simp] theorem State.burning_grant (step : WriterState) (a : ActiveJob) (todo : List (Nat × Byte)) (pulses : Nat) :
    (s.burning step a todo pulses).grant = s.grant := rfl
@[simp] theorem State.burning_table (step : WriterState) (a : ActiveJob) (todo : List (Nat × Byte)) (pulses : Nat) :
    (s.burning step a todo pulses).table = s.table := rfl
@[simp] theorem State.burning_overlays (step : WriterState) (a : ActiveJob) (todo : List (Nat × Byte)) (pulses : Nat) :
    (s.burning step a todo pulses).overlays = s.overlays := rfl
@[simp] theorem State.burning_burnQueue (step : WriterState) (a : ActiveJob) (todo : List (Nat × Byte)) (pulses : Nat) :
    (s.burning step a todo pulses).burnQueue = s.burnQueue := rfl
@[simp] theorem State.burning_writer (step : WriterState) (a : ActiveJob) (todo : List (Nat × Byte)) (pulses : Nat) :
    (s.burning step a todo pulses).writer = step := rfl
@[simp] theorem State.burning_active (step : WriterState) (a : ActiveJob) (todo : List (Nat × Byte)) (pulses : Nat) :
    (s.burning step a todo pulses).active = some { a with todo := todo, pulses := pulses, moment := .none } := rfl
@[simp] theorem State.burning_replay (step : WriterState) (a : ActiveJob) (todo : List (Nat × Byte)) (pulses : Nat) :
    (s.burning step a todo pulses).replay = s.replay := rfl
@[simp] theorem State.burning_requester (step : WriterState) (a : ActiveJob) (todo : List (Nat × Byte)) (pulses : Nat) :
    (s.burning step a todo pulses).requester = s.requester := rfl
@[simp] theorem State.burning_working (step : WriterState) (a : ActiveJob) (todo : List (Nat × Byte)) (pulses : Nat) :
    (s.burning step a todo pulses).working = s.working := rfl
@[simp] theorem State.burning_staging (step : WriterState) (a : ActiveJob) (todo : List (Nat × Byte)) (pulses : Nat) :
    (s.burning step a todo pulses).staging = s.staging := rfl
@[simp] theorem State.burning_session (step : WriterState) (a : ActiveJob) (todo : List (Nat × Byte)) (pulses : Nat) :
    (s.burning step a todo pulses).session = s.session := rfl
@[simp] theorem State.burning_handler (step : WriterState) (a : ActiveJob) (todo : List (Nat × Byte)) (pulses : Nat) :
    (s.burning step a todo pulses).handler = s.handler := rfl
@[simp] theorem State.burning_window (step : WriterState) (a : ActiveJob) (todo : List (Nat × Byte)) (pulses : Nat) :
    (s.burning step a todo pulses).window = s.window := rfl
@[simp] theorem State.burning_link (step : WriterState) (a : ActiveJob) (todo : List (Nat × Byte)) (pulses : Nat) :
    (s.burning step a todo pulses).link = s.link := rfl
@[simp] theorem State.burning_portEnable (step : WriterState) (a : ActiveJob) (todo : List (Nat × Byte)) (pulses : Nat) :
    (s.burning step a todo pulses).portEnable = s.portEnable := rfl
@[simp] theorem State.burning_burnEn (step : WriterState) (a : ActiveJob) (todo : List (Nat × Byte)) (pulses : Nat) :
    (s.burning step a todo pulses).burnEn = s.burnEn := rfl
@[simp] theorem State.burning_resetAsserted (step : WriterState) (a : ActiveJob) (todo : List (Nat × Byte)) (pulses : Nat) :
    (s.burning step a todo pulses).resetAsserted = s.resetAsserted := rfl
@[simp] theorem State.burning_pending (step : WriterState) (a : ActiveJob) (todo : List (Nat × Byte)) (pulses : Nat) :
    (s.burning step a todo pulses).pending = s.pending := rfl
@[simp] theorem State.burning_pauses (step : WriterState) (a : ActiveJob) (todo : List (Nat × Byte)) (pulses : Nat) :
    (s.burning step a todo pulses).pauses = s.pauses := rfl

@[simp] theorem State.holdAt_array (step : WriterState) (a : ActiveJob) (moment : Moment) :
    (s.holdAt step a moment).array = s.array := rfl
@[simp] theorem State.holdAt_bodyTop (step : WriterState) (a : ActiveJob) (moment : Moment) :
    (s.holdAt step a moment).bodyTop = s.bodyTop := rfl
@[simp] theorem State.holdAt_slotsUsed (step : WriterState) (a : ActiveJob) (moment : Moment) :
    (s.holdAt step a moment).slotsUsed = s.slotsUsed := rfl
@[simp] theorem State.holdAt_index (step : WriterState) (a : ActiveJob) (moment : Moment) :
    (s.holdAt step a moment).index = s.index := rfl
@[simp] theorem State.holdAt_journal (step : WriterState) (a : ActiveJob) (moment : Moment) :
    (s.holdAt step a moment).journal = s.journal := rfl
@[simp] theorem State.holdAt_counts (step : WriterState) (a : ActiveJob) (moment : Moment) :
    (s.holdAt step a moment).counts = s.counts := rfl
@[simp] theorem State.holdAt_grant (step : WriterState) (a : ActiveJob) (moment : Moment) :
    (s.holdAt step a moment).grant = s.grant := rfl
@[simp] theorem State.holdAt_table (step : WriterState) (a : ActiveJob) (moment : Moment) :
    (s.holdAt step a moment).table = s.table := rfl
@[simp] theorem State.holdAt_overlays (step : WriterState) (a : ActiveJob) (moment : Moment) :
    (s.holdAt step a moment).overlays = s.overlays := rfl
@[simp] theorem State.holdAt_burnQueue (step : WriterState) (a : ActiveJob) (moment : Moment) :
    (s.holdAt step a moment).burnQueue = s.burnQueue := rfl
@[simp] theorem State.holdAt_writer (step : WriterState) (a : ActiveJob) (moment : Moment) :
    (s.holdAt step a moment).writer = step := rfl
@[simp] theorem State.holdAt_active (step : WriterState) (a : ActiveJob) (moment : Moment) :
    (s.holdAt step a moment).active = some { a with todo := [], pulses := 0, moment := moment } := rfl
@[simp] theorem State.holdAt_replay (step : WriterState) (a : ActiveJob) (moment : Moment) :
    (s.holdAt step a moment).replay = s.replay := rfl
@[simp] theorem State.holdAt_requester (step : WriterState) (a : ActiveJob) (moment : Moment) :
    (s.holdAt step a moment).requester = s.requester := rfl
@[simp] theorem State.holdAt_working (step : WriterState) (a : ActiveJob) (moment : Moment) :
    (s.holdAt step a moment).working = s.working := rfl
@[simp] theorem State.holdAt_staging (step : WriterState) (a : ActiveJob) (moment : Moment) :
    (s.holdAt step a moment).staging = s.staging := rfl
@[simp] theorem State.holdAt_session (step : WriterState) (a : ActiveJob) (moment : Moment) :
    (s.holdAt step a moment).session = s.session := rfl
@[simp] theorem State.holdAt_handler (step : WriterState) (a : ActiveJob) (moment : Moment) :
    (s.holdAt step a moment).handler = s.handler := rfl
@[simp] theorem State.holdAt_window (step : WriterState) (a : ActiveJob) (moment : Moment) :
    (s.holdAt step a moment).window = s.window := rfl
@[simp] theorem State.holdAt_link (step : WriterState) (a : ActiveJob) (moment : Moment) :
    (s.holdAt step a moment).link = s.link := rfl
@[simp] theorem State.holdAt_portEnable (step : WriterState) (a : ActiveJob) (moment : Moment) :
    (s.holdAt step a moment).portEnable = s.portEnable := rfl
@[simp] theorem State.holdAt_burnEn (step : WriterState) (a : ActiveJob) (moment : Moment) :
    (s.holdAt step a moment).burnEn = s.burnEn := rfl
@[simp] theorem State.holdAt_resetAsserted (step : WriterState) (a : ActiveJob) (moment : Moment) :
    (s.holdAt step a moment).resetAsserted = s.resetAsserted := rfl
@[simp] theorem State.holdAt_pending (step : WriterState) (a : ActiveJob) (moment : Moment) :
    (s.holdAt step a moment).pending = s.pending := rfl
@[simp] theorem State.holdAt_pauses (step : WriterState) (a : ActiveJob) (moment : Moment) :
    (s.holdAt step a moment).pauses = s.pauses := rfl

@[simp] theorem State.endFrame_array (next : LinkState) : (s.endFrame next).array = s.array := rfl
@[simp] theorem State.endFrame_bodyTop (next : LinkState) : (s.endFrame next).bodyTop = s.bodyTop := rfl
@[simp] theorem State.endFrame_slotsUsed (next : LinkState) : (s.endFrame next).slotsUsed = s.slotsUsed := rfl
@[simp] theorem State.endFrame_index (next : LinkState) : (s.endFrame next).index = s.index := rfl
@[simp] theorem State.endFrame_journal (next : LinkState) : (s.endFrame next).journal = s.journal := rfl
@[simp] theorem State.endFrame_counts (next : LinkState) : (s.endFrame next).counts = s.counts := rfl
@[simp] theorem State.endFrame_grant (next : LinkState) : (s.endFrame next).grant = s.grant := rfl
@[simp] theorem State.endFrame_table (next : LinkState) : (s.endFrame next).table = s.table := rfl
@[simp] theorem State.endFrame_overlays (next : LinkState) : (s.endFrame next).overlays = s.overlays := rfl
@[simp] theorem State.endFrame_burnQueue (next : LinkState) : (s.endFrame next).burnQueue = s.burnQueue := rfl
@[simp] theorem State.endFrame_writer (next : LinkState) : (s.endFrame next).writer = s.writer := rfl
@[simp] theorem State.endFrame_active (next : LinkState) : (s.endFrame next).active = s.active := rfl
@[simp] theorem State.endFrame_replay (next : LinkState) : (s.endFrame next).replay = s.replay := rfl
@[simp] theorem State.endFrame_requester (next : LinkState) : (s.endFrame next).requester = s.requester := rfl
@[simp] theorem State.endFrame_working (next : LinkState) : (s.endFrame next).working = s.working := rfl
@[simp] theorem State.endFrame_staging (next : LinkState) : (s.endFrame next).staging = s.staging := rfl
@[simp] theorem State.endFrame_session (next : LinkState) : (s.endFrame next).session = s.session := rfl
@[simp] theorem State.endFrame_handler (next : LinkState) : (s.endFrame next).handler = s.handler := rfl
@[simp] theorem State.endFrame_window (next : LinkState) : (s.endFrame next).window = s.window := rfl
@[simp] theorem State.endFrame_link (next : LinkState) :
    (s.endFrame next).link = { s.link with state := next, rxBits := [] } := rfl
@[simp] theorem State.endFrame_portEnable (next : LinkState) :
    (s.endFrame next).portEnable = s.portEnable := rfl
@[simp] theorem State.endFrame_burnEn (next : LinkState) : (s.endFrame next).burnEn = s.burnEn := rfl
@[simp] theorem State.endFrame_resetAsserted (next : LinkState) :
    (s.endFrame next).resetAsserted = s.resetAsserted := rfl
@[simp] theorem State.endFrame_pending (next : LinkState) : (s.endFrame next).pending = s.pending := rfl
@[simp] theorem State.endFrame_pauses (next : LinkState) : (s.endFrame next).pauses = s.pauses := rfl

end

/-! ### The grant of a job -/

/-- A granted job is the writer's active one, held with no test made (R61). -/
@[simp] theorem State.grantJob_active (s : State) (j : Job) :
    (s.grantJob j).active = some (ActiveJob.granted j) := by
  unfold State.grantJob
  split <;> rfl

/-- At a grant the writer leaves IDLE (R61). -/
theorem State.grantJob_writer (s : State) (j : Job) : (s.grantJob j).writer ≠ .idle := by
  unfold State.grantJob
  split <;> simp

/-- A part that pauses holds a job at its grant (R59, R76). -/
theorem State.startJob_of_pauses (s : State) (j : Job) (h : s.pauses = true) :
    s.startJob j = s.grantJob j := by simp [State.startJob, h]

/-- A part that does not pause tests a job at its grant (R62, R97). -/
theorem State.startJob_of_runs (s : State) (j : Job) (h : s.pauses = false) :
    s.startJob j = (s.grantJob j).testJob j := by simp [State.startJob, h]

/-! ### The ends of a byte on a window port -/

/-- The end of a byte of an SPI transaction touches nothing but the transaction (R159). -/
theorem Window.endByte_eq (x : Window) :
    x.endByte = { x with spi := x.endByte.spi, csRises := x.endByte.csRises } := by
  unfold Window.endByte
  split <;> rfl

/-- With CS high there is no byte of a transaction to end. -/
@[simp] theorem Window.endByte_deselected (x : Window) (h : x.spi = .deselected) : x.endByte = x := by
  simp [Window.endByte, h]

/-- A window port in no SPI write takes a byte at the offset it is sent for. -/
@[simp] theorem Window.beforeWrite_of_ne (x : Window) (offset : Byte) (h : x.spi ≠ .writing) :
    x.beforeWrite offset = x := by simp [Window.beforeWrite, h]

/-! ### Running -/

theorem State.running_eq (s : State) (f : State → State) (h : s.resetAsserted = false) :
    s.running f = f s := by simp [State.running, h]

theorem State.running_asserted (s : State) (f : State → State) (h : s.resetAsserted = true) :
    s.running f = s := by simp [State.running, h]

end Sys2Proof.Machine
end

