-- ==== Sys2Proof/Laws/Frames.lean ====
section
/-! SUPPORT. What each shared operation can touch: one lemma per operation, an equation that names every field the
operation may change. -/

namespace Sys2Proof.Machine

theorem State.settleLink_frame (s : State) :
    ∃ t : State, s.settleLink =
      { s with link := t.link } := by
  refine ⟨s.settleLink, ?_⟩
  unfold State.settleLink
  split <;> rfl

/-- What follows every event touches the link and the windows alone (R165, R170). -/
theorem State.settle_frame (s : State) :
    ∃ t : State, s.settle =
      { s with window := t.window, link := t.link } := by
  refine ⟨s.settle, ?_⟩
  unfold State.settle State.settleAttn
  obtain ⟨_, h⟩ := State.settleLink_frame s
  rw [h]

theorem State.endStaging_frame (s : State) (p : Port) :
    ∃ t : State, s.endStaging p =
      { s with burnQueue := t.burnQueue, staging := t.staging, session := t.session } := by
  refine ⟨s.endStaging p, ?_⟩
  unfold State.endStaging
  split <;> rfl

theorem State.removeOverlays_frame (s : State) (gone : OverlayRecord → Bool) (cause : Cause)
    (port : OverlayRecord → Port) :
    ∃ t : State, s.removeOverlays gone cause port =
      { s with overlays := t.overlays, session := t.session } := by
  refine ⟨s.removeOverlays gone cause port, ?_⟩
  rfl

theorem State.endNotices_frame (s : State) (p : Port) :
    ∃ t : State, s.endNotices p =
      { s with link := t.link } := by
  refine ⟨s.endNotices p, ?_⟩
  cases p <;> rfl

/-- A session end reaches these blocks alone (R124, R125). -/
theorem State.endSession_frame (s : State) (p : Port) :
    ∃ t : State, s.endSession p =
      { s with
        overlays := t.overlays, burnQueue := t.burnQueue, active := t.active, requester := t.requester,
        staging := t.staging, session := t.session, link := t.link } := by
  refine ⟨s.endSession p, ?_⟩
  unfold State.endSession State.endOverlays
  split
  · obtain ⟨_, h⟩ := State.removeOverlays_frame _ _ .sessionEnd fun _ => p
    rw [h]; clear h
    obtain ⟨_, h⟩ := State.endNotices_frame _ p
    rw [h]; clear h
    unfold State.endClaims
    obtain ⟨_, h⟩ := State.endStaging_frame _ p
    rw [h]; clear h
    rfl
  · rfl

theorem State.openSession_frame (s : State) (p : Port) :
    ∃ t : State, s.openSession p =
      { s with
        overlays := t.overlays, burnQueue := t.burnQueue, active := t.active, requester := t.requester,
        staging := t.staging, session := t.session, link := t.link } := by
  refine ⟨s.openSession p, ?_⟩
  unfold State.openSession
  obtain ⟨_, h⟩ := State.endSession_frame s p
  rw [h]; clear h
  rfl

theorem State.setOverlay_frame (s : State) (p : Port) (key : Nat) (value : Bytes) (lifetime : Nat)
    (bound : Bool) :
    ∃ t : State, s.setOverlay p key value lifetime bound =
      { s with overlays := t.overlays, session := t.session } := by
  refine ⟨s.setOverlay p key value lifetime bound, ?_⟩
  rfl

/-- An answer handed over touches the handler and the port's transport (R145, R146). -/
theorem State.handOver_frame (s : State) (p : Port) (r : Response) :
    ∃ t : State, s.handOver p r =
      { s with handler := t.handler, window := t.window, link := t.link } := by
  refine ⟨s.handOver p r, ?_⟩
  cases p <;> simp only [State.handOver, windowOf] <;> split <;> rfl

theorem State.windowGo_frame (s : State) (w : WindowPort) :
    ∃ t : State, s.windowGo w =
      { s with handler := t.handler, window := t.window } := by
  refine ⟨s.windowGo w, ?_⟩
  unfold State.windowGo
  simp only
  split
  · rfl
  · split <;> rfl

theorem State.windowReset_frame (s : State) (w : WindowPort) :
    ∃ t : State, s.windowReset w =
      { s with
        overlays := t.overlays, burnQueue := t.burnQueue, active := t.active, requester := t.requester,
        staging := t.staging, session := t.session, handler := t.handler, window := t.window,
        link := t.link } := by
  refine ⟨s.windowReset w, ?_⟩
  unfold State.windowReset State.softReset
  obtain ⟨_, h⟩ := State.endSession_frame _ w.port
  rw [h]; clear h
  rfl

theorem State.controlCode_frame (s : State) (w : WindowPort) (code : Byte) :
    ∃ t : State, s.controlCode w code =
      { s with
        overlays := t.overlays, burnQueue := t.burnQueue, active := t.active, requester := t.requester,
        staging := t.staging, session := t.session, handler := t.handler, window := t.window,
        link := t.link } := by
  refine ⟨s.controlCode w code, ?_⟩
  unfold State.controlCode
  split
  · obtain ⟨_, h⟩ := State.windowGo_frame s w
    rw [h]
  · split
    · rfl
    · split
      · obtain ⟨_, h⟩ := State.windowReset_frame s w
        rw [h]
      · rfl

/-- A byte taken into a window reaches the window, the handler and the blocks of a session end alone (R160). -/
theorem State.landByte_frame (s : State) (w : WindowPort) (offset data : Byte) :
    ∃ t : State, s.landByte w offset data =
      { s with
        overlays := t.overlays, burnQueue := t.burnQueue, active := t.active, requester := t.requester,
        staging := t.staging, session := t.session, handler := t.handler, window := t.window,
        link := t.link } := by
  refine ⟨s.landByte w offset data, ?_⟩
  unfold State.landByte
  simp only
  split
  · obtain ⟨_, h⟩ := State.controlCode_frame s w data
    rw [h]; clear h
    rfl
  · split
    · rfl
    · split <;> rfl

theorem State.windowWrite_frame (s : State) (w : WindowPort) (offset data : Byte) :
    ∃ t : State, s.windowWrite w offset data =
      { s with
        overlays := t.overlays, burnQueue := t.burnQueue, active := t.active, requester := t.requester,
        staging := t.staging, session := t.session, handler := t.handler, window := t.window,
        link := t.link } := by
  refine ⟨s.windowWrite w offset data, ?_⟩
  unfold State.windowWrite
  simp only
  split
  · rfl
  · obtain ⟨_, h⟩ := State.landByte_frame (s.setWindow w _) w offset data
    rw [h]; clear h
    rfl

theorem State.landBytes_frame (s : State) (w : WindowPort) (offset : Byte) (bytes : Bytes) :
    ∃ t : State, s.landBytes w offset bytes =
      { s with
        overlays := t.overlays, burnQueue := t.burnQueue, active := t.active, requester := t.requester,
        staging := t.staging, session := t.session, handler := t.handler, window := t.window,
        link := t.link } := by
  refine ⟨s.landBytes w offset bytes, ?_⟩
  induction bytes generalizing s offset with
  | nil => rfl
  | cons b rest ih =>
    unfold State.landBytes
    rw [ih (s.landByte w offset b) (offset + 1)]
    obtain ⟨_, h⟩ := State.landByte_frame s w offset b
    rw [h]

theorem State.submitToWindow_frame (s : State) (w : WindowPort) (r : Record) :
    ∃ t : State, s.submitToWindow w r =
      { s with
        overlays := t.overlays, burnQueue := t.burnQueue, active := t.active, requester := t.requester,
        staging := t.staging, session := t.session, handler := t.handler, window := t.window,
        link := t.link } := by
  refine ⟨s.submitToWindow w r, ?_⟩
  unfold State.submitToWindow
  obtain ⟨_, h⟩ := State.landByte_frame _ w 0x01 0xA1
  rw [h]; clear h
  obtain ⟨_, h⟩ := State.landBytes_frame _ w 0x10 r.bytes
  rw [h]; clear h
  rfl

/-- A pulse touches the array alone (R27, R28). -/
theorem State.pulseCell_frame (s : State) (offset : Nat) (taken : Byte) :
    ∃ t : State, s.pulseCell offset taken =
      { s with array := t.array } := by
  refine ⟨s.pulseCell offset taken, ?_⟩
  unfold State.pulseCell
  split <;> rfl

/-- The end of a commit job touches the notices, the Last Commit record, the list, the journal state and the
writer (R72). -/
theorem State.endCommit_frame (s : State) (j : Job) (result : Result) (seq failIndex : Option Nat) :
    ∃ t : State, s.endCommit j result seq failIndex =
      { s with
        journal := t.journal, writer := t.writer, active := t.active, staging := t.staging,
        session := t.session } := by
  refine ⟨s.endCommit j result seq failIndex, ?_⟩
  unfold State.endCommit State.releaseWriter State.post
  simp only
  split <;> split <;> rfl

/-- The end of a revoke job touches the session, the journal state and the writer (R99). -/
theorem State.endRevoke_frame (s : State) (j : Job) (result : Result) (target : Nat) :
    ∃ t : State, s.endRevoke j result target =
      { s with journal := t.journal, writer := t.writer, active := t.active, session := t.session } := by
  refine ⟨s.endRevoke j result target, ?_⟩
  unfold State.endRevoke State.releaseWriter State.post
  simp only
  split <;> rfl

theorem State.stepVoid_frame (s : State) (a : ActiveJob) (r : BurnRun) :
    ∃ t : State, s.stepVoid a r =
      { s with
        index := t.index, journal := t.journal, writer := t.writer, active := t.active,
        staging := t.staging, session := t.session } := by
  refine ⟨s.stepVoid a r, ?_⟩
  unfold State.stepVoid
  split
  · rfl
  · obtain ⟨_, h⟩ := State.endCommit_frame _ a.job .burnFault (some a.seq) none
    rw [h]; clear h
    rfl
  · obtain ⟨_, h⟩ := State.endCommit_frame _ a.job .burnFault (some a.seq) none
    rw [h]

theorem State.voidSlot_frame (s : State) (a : ActiveJob) :
    ∃ t : State, s.voidSlot a =
      { s with
        index := t.index, journal := t.journal, writer := t.writer, active := t.active,
        staging := t.staging, session := t.session } := by
  refine ⟨s.voidSlot a, ?_⟩
  unfold State.voidSlot
  obtain ⟨_, h⟩ := State.stepVoid_frame s a _
  rw [h]

theorem State.voidFromBody_frame (s : State) (a : ActiveJob) :
    ∃ t : State, s.voidFromBody a =
      { s with
        slotsUsed := t.slotsUsed, index := t.index, journal := t.journal, writer := t.writer,
        active := t.active, staging := t.staging, session := t.session } := by
  refine ⟨s.voidFromBody a, ?_⟩
  unfold State.voidFromBody
  simp only
  obtain ⟨_, h⟩ := State.stepVoid_frame (s.beginSlot a) a _
  rw [h]; clear h
  rfl

/-- APPLY touches the table, the overlays and the index, and ends the job (R68). -/
theorem State.applyPatch_frame (s : State) (a : ActiveJob) (pause : Bool) :
    ∃ t : State, s.applyPatch a pause =
      { s with
        index := t.index, journal := t.journal, table := t.table, overlays := t.overlays,
        writer := t.writer, active := t.active, staging := t.staging, session := t.session } := by
  refine ⟨s.applyPatch a pause, ?_⟩
  unfold State.applyPatch State.finishCommit
  simp only
  split
  · rfl
  · obtain ⟨_, h⟩ := State.endCommit_frame _ a.job .done (some a.seq) none
    rw [h]; clear h
    rfl

theorem State.stepSeal_frame (s : State) (a : ActiveJob) (r : BurnRun) (pause : Bool) :
    ∃ t : State, s.stepSeal a r pause =
      { s with
        index := t.index, journal := t.journal, table := t.table, overlays := t.overlays,
        writer := t.writer, active := t.active, staging := t.staging, session := t.session } := by
  refine ⟨s.stepSeal a r pause, ?_⟩
  unfold State.stepSeal
  split
  · rfl
  · simp only
    split
    · rfl
    · obtain ⟨_, h⟩ := State.applyPatch_frame (s.setEntryState a.seq .sealed) a false
      rw [h]; clear h
      rfl
  · obtain ⟨_, h⟩ := State.voidSlot_frame s a
    rw [h]

theorem State.stepVerify_frame (s : State) (a : ActiveJob) (pause : Bool) :
    ∃ t : State, s.stepVerify a pause =
      { s with
        index := t.index, journal := t.journal, table := t.table, overlays := t.overlays,
        writer := t.writer, active := t.active, staging := t.staging, session := t.session } := by
  refine ⟨s.stepVerify a pause, ?_⟩
  unfold State.stepVerify
  split
  · obtain ⟨_, h⟩ := State.stepSeal_frame s a _ pause
    rw [h]
  · obtain ⟨_, h⟩ := State.voidSlot_frame s a
    rw [h]

theorem State.stepEntry_frame (s : State) (a : ActiveJob) (r : BurnRun) :
    ∃ t : State, s.stepEntry a r =
      { s with
        index := t.index, journal := t.journal, writer := t.writer, active := t.active,
        staging := t.staging, session := t.session } := by
  refine ⟨s.stepEntry a r, ?_⟩
  unfold State.stepEntry
  split
  · rfl
  · rfl
  · obtain ⟨_, h⟩ := State.voidSlot_frame s a
    rw [h]

theorem State.beginEntry_frame (s : State) (a : ActiveJob) :
    ∃ t : State, s.beginEntry a =
      { s with
        slotsUsed := t.slotsUsed, index := t.index, journal := t.journal, writer := t.writer,
        active := t.active, staging := t.staging, session := t.session } := by
  refine ⟨s.beginEntry a, ?_⟩
  unfold State.beginEntry
  simp only
  obtain ⟨_, h⟩ := State.stepEntry_frame (s.beginSlot a) a _
  rw [h]; clear h
  rfl

/-- The slot begun after BODY touches the index, the slot count and what the end of a job may (R65, R69). -/
theorem State.leaveBody_frame (s : State) (a : ActiveJob) (whole : Bool) :
    ∃ t : State, s.leaveBody a whole =
      { s with
        slotsUsed := t.slotsUsed, index := t.index, journal := t.journal, writer := t.writer,
        active := t.active, staging := t.staging, session := t.session } := by
  refine ⟨s.leaveBody a whole, ?_⟩
  unfold State.leaveBody
  split
  · obtain ⟨_, h⟩ := State.beginEntry_frame s a
    rw [h]
  · obtain ⟨_, h⟩ := State.voidFromBody_frame s a
    rw [h]

theorem State.finishBody_frame (s : State) (a : ActiveJob) (whole pause : Bool) :
    ∃ t : State, s.finishBody a whole pause =
      { s with
        bodyTop := t.bodyTop, slotsUsed := t.slotsUsed, index := t.index, journal := t.journal,
        writer := t.writer, active := t.active, staging := t.staging, session := t.session } := by
  refine ⟨s.finishBody a whole pause, ?_⟩
  unfold State.finishBody
  simp only
  split
  · rfl
  · obtain ⟨_, h⟩ := State.leaveBody_frame (s.endBody a) a whole
    rw [h]; clear h
    rfl

theorem State.stepBody_frame (s : State) (a : ActiveJob) (r : BurnRun) (pause : Bool) :
    ∃ t : State, s.stepBody a r pause =
      { s with
        bodyTop := t.bodyTop, slotsUsed := t.slotsUsed, index := t.index, journal := t.journal,
        writer := t.writer, active := t.active, staging := t.staging, session := t.session } := by
  refine ⟨s.stepBody a r pause, ?_⟩
  unfold State.stepBody
  split
  · rfl
  · obtain ⟨_, h⟩ := State.finishBody_frame s a true pause
    rw [h]
  · obtain ⟨_, h⟩ := State.finishBody_frame s a false pause
    rw [h]

theorem State.testCommit_frame (s : State) (j : Job) :
    ∃ t : State, s.testCommit j =
      { s with
        bodyTop := t.bodyTop, slotsUsed := t.slotsUsed, index := t.index, journal := t.journal,
        writer := t.writer, active := t.active, staging := t.staging, session := t.session } := by
  refine ⟨s.testCommit j, ?_⟩
  unfold State.testCommit
  simp only
  split
  · obtain ⟨_, h⟩ := State.endCommit_frame _ j .notBlank none _
    rw [h]
  · obtain ⟨_, h⟩ := State.endCommit_frame _ j _ none _
    rw [h]
  · obtain ⟨_, h⟩ := State.stepBody_frame _ _ _ s.pauses
    rw [h]

theorem State.stepRevoke_frame (s : State) (a : ActiveJob) (r : BurnRun) :
    ∃ t : State, s.stepRevoke a r =
      { s with
        index := t.index, journal := t.journal, writer := t.writer, active := t.active,
        session := t.session } := by
  refine ⟨s.stepRevoke a r, ?_⟩
  unfold State.stepRevoke
  split
  · rfl
  · split
    · obtain ⟨_, h⟩ := State.endRevoke_frame _ a.job .revokeFault a.seq
      rw [h]
    · obtain ⟨_, h⟩ := State.endRevoke_frame _ a.job .done a.seq
      rw [h]; clear h
      rfl

theorem State.testRevoke_frame (s : State) (j : Job) (target : Nat) :
    ∃ t : State, s.testRevoke j target =
      { s with
        index := t.index, journal := t.journal, writer := t.writer, active := t.active,
        session := t.session } := by
  refine ⟨s.testRevoke j target, ?_⟩
  unfold State.testRevoke
  split
  · obtain ⟨_, h⟩ := State.endRevoke_frame s j _ target
    rw [h]
  · simp only
    obtain ⟨_, h⟩ := State.stepRevoke_frame s _ _
    rw [h]

/-- The grant of a job touches the writer and the job's list alone (R61). -/
theorem State.grantJob_frame (s : State) (j : Job) :
    ∃ t : State, s.grantJob j =
      { s with writer := t.writer, active := t.active, staging := t.staging } := by
  refine ⟨s.grantJob j, ?_⟩
  unfold State.grantJob
  split <;> rfl

theorem State.testJob_frame (s : State) (j : Job) :
    ∃ t : State, s.testJob j =
      { s with
        bodyTop := t.bodyTop, slotsUsed := t.slotsUsed, index := t.index, journal := t.journal,
        writer := t.writer, active := t.active, staging := t.staging, session := t.session } := by
  refine ⟨s.testJob j, ?_⟩
  unfold State.testJob
  split
  · obtain ⟨_, h⟩ := State.testCommit_frame s j
    rw [h]
  · obtain ⟨_, h⟩ := State.testRevoke_frame s j _
    rw [h]

/-- The writer taking a job touches no cell, no key and no overlay (R61 to R65). -/
theorem State.startJob_frame (s : State) (j : Job) :
    ∃ t : State, s.startJob j =
      { s with
        bodyTop := t.bodyTop, slotsUsed := t.slotsUsed, index := t.index, journal := t.journal,
        writer := t.writer, active := t.active, staging := t.staging, session := t.session } := by
  refine ⟨s.startJob j, ?_⟩
  unfold State.startJob
  simp only
  split
  · obtain ⟨_, h⟩ := State.grantJob_frame s j
    rw [h]
  · obtain ⟨_, h⟩ := State.testJob_frame (s.grantJob j) j
    rw [h]; clear h
    obtain ⟨_, h⟩ := State.grantJob_frame s j
    rw [h]

/-- A pulse touches the array and what the writer's steps and the end of its job may (R27, R64 to R70). -/
theorem State.pulse_frame (s : State) (a : ActiveJob) (taken : Byte) (pause : Bool) :
    ∃ t : State, s.pulse a taken pause =
      { s with
        array := t.array, bodyTop := t.bodyTop, slotsUsed := t.slotsUsed, index := t.index,
        journal := t.journal, table := t.table, overlays := t.overlays, writer := t.writer,
        active := t.active, staging := t.staging, session := t.session } := by
  refine ⟨s.pulse a taken pause, ?_⟩
  unfold State.pulse
  split
  · rfl
  · simp only
    split
    · obtain ⟨_, h⟩ := State.stepBody_frame (s.pulseCell _ taken) _ _ pause
      rw [h]; clear h
      obtain ⟨_, h⟩ := State.pulseCell_frame s _ taken
      rw [h]
    · obtain ⟨_, h⟩ := State.stepEntry_frame (s.pulseCell _ taken) _ _
      rw [h]; clear h
      obtain ⟨_, h⟩ := State.pulseCell_frame s _ taken
      rw [h]
    · obtain ⟨_, h⟩ := State.stepSeal_frame (s.pulseCell _ taken) _ _ pause
      rw [h]; clear h
      obtain ⟨_, h⟩ := State.pulseCell_frame s _ taken
      rw [h]
    · obtain ⟨_, h⟩ := State.stepVoid_frame (s.pulseCell _ taken) _ _
      rw [h]; clear h
      obtain ⟨_, h⟩ := State.pulseCell_frame s _ taken
      rw [h]
    · obtain ⟨_, h⟩ := State.stepRevoke_frame (s.pulseCell _ taken) _ _
      rw [h]; clear h
      obtain ⟨_, h⟩ := State.pulseCell_frame s _ taken
      rw [h]
    · rfl

theorem State.burnPulse_frame (s : State) (taken : Byte) (pause : Bool) :
    ∃ t : State, s.burnPulse taken pause =
      { s with
        array := t.array, bodyTop := t.bodyTop, slotsUsed := t.slotsUsed, index := t.index,
        journal := t.journal, table := t.table, overlays := t.overlays, writer := t.writer,
        active := t.active, staging := t.staging, session := t.session } := by
  refine ⟨s.burnPulse taken pause, ?_⟩
  unfold State.burnPulse State.finishCommit
  split
  · rfl
  · split
    · obtain ⟨_, h⟩ := State.testJob_frame s _
      rw [h]
    · obtain ⟨_, h⟩ := State.leaveBody_frame s _ _
      rw [h]
    · obtain ⟨_, h⟩ := State.applyPatch_frame s _ pause
      rw [h]
    · obtain ⟨_, h⟩ := State.endCommit_frame s _ .done _ none
      rw [h]
    · obtain ⟨_, h⟩ := State.pulse_frame s _ taken pause
      rw [h]

/-- Serving the queue at a free array touches no cell, no key and no overlay (R44, R61). -/
theorem serveJobs_frame (s : State) (jobs : List Job) :
    ∃ t : State, serveJobs jobs s =
      { s with
        bodyTop := t.bodyTop, slotsUsed := t.slotsUsed, index := t.index, journal := t.journal,
        grant := t.grant, burnQueue := t.burnQueue, writer := t.writer, active := t.active,
        staging := t.staging, session := t.session } := by
  refine ⟨serveJobs jobs s, ?_⟩
  induction jobs generalizing s with
  | nil => rfl
  | cons j rest ih =>
    unfold serveJobs
    simp only
    split
    · rw [ih]
      obtain ⟨_, h⟩ := State.startJob_frame { s with burnQueue := rest, grant := .writer } j
      rw [h]
    · obtain ⟨_, h⟩ := State.startJob_frame { s with burnQueue := rest, grant := .writer } j
      rw [h]

theorem State.resolveGrant_frame (s : State) :
    ∃ t : State, s.resolveGrant =
      { s with
        bodyTop := t.bodyTop, slotsUsed := t.slotsUsed, index := t.index, journal := t.journal,
        grant := t.grant, burnQueue := t.burnQueue, writer := t.writer, active := t.active,
        replay := t.replay, working := t.working, staging := t.staging, session := t.session } := by
  refine ⟨s.resolveGrant, ?_⟩
  unfold State.resolveGrant
  split
  · rfl
  · obtain ⟨_, h⟩ := serveJobs_frame s s.burnQueue
    rw [h]

/-- The arbiter's grants touch no cell, no key, no overlay and no handler (R44). -/
theorem State.arbitrate_frame (s : State) :
    ∃ t : State, s.arbitrate =
      { s with
        bodyTop := t.bodyTop, slotsUsed := t.slotsUsed, index := t.index, journal := t.journal,
        grant := t.grant, burnQueue := t.burnQueue, writer := t.writer, active := t.active,
        replay := t.replay, working := t.working, staging := t.staging, session := t.session } := by
  refine ⟨s.arbitrate, ?_⟩
  unfold State.arbitrate
  split
  · obtain ⟨_, h⟩ := State.resolveGrant_frame s
    rw [h]
  · split
    · obtain ⟨_, h⟩ := State.resolveGrant_frame s
      rw [h]
    · rfl
  · rfl

/-- The start-up install touches these blocks alone (R87). -/
theorem State.installStartup_frame (s : State) :
    ∃ t : State, s.installStartup =
      { s with
        bodyTop := t.bodyTop, slotsUsed := t.slotsUsed, index := t.index, journal := t.journal,
        counts := t.counts, table := t.table, replay := t.replay, requester := t.requester,
        working := t.working, window := t.window, link := t.link, portEnable := t.portEnable } := by
  refine ⟨s.installStartup, ?_⟩
  rfl

/-- The rebuild install touches these blocks alone (R91, R92). -/
theorem State.installRebuild_frame (s : State) :
    ∃ t : State, s.installRebuild =
      { s with
        bodyTop := t.bodyTop, slotsUsed := t.slotsUsed, index := t.index, journal := t.journal,
        counts := t.counts, table := t.table, overlays := t.overlays, replay := t.replay,
        requester := t.requester, working := t.working, session := t.session } := by
  refine ⟨s.installRebuild, ?_⟩
  unfold State.installRebuild State.postRebuild State.post
  simp only
  split
  · rfl
  · split <;> rfl

theorem State.takeStartMark_frame (s : State) :
    ∃ t : State, s.takeStartMark =
      { s with link := t.link } := by
  refine ⟨s.takeStartMark, ?_⟩
  unfold State.takeStartMark
  split <;> rfl

theorem State.takeReq_frame (s : State) (tag kind : Byte) (args : Bytes) :
    ∃ t : State, s.takeReq tag kind args =
      { s with handler := t.handler, link := t.link } := by
  refine ⟨s.takeReq tag kind args, ?_⟩
  unfold State.takeReq State.setPending
  simp only
  split
  · rfl
  · split <;> rfl

theorem State.takeAck_frame (s : State) (tag : Byte) :
    ∃ t : State, s.takeAck tag =
      { s with session := t.session, link := t.link } := by
  refine ⟨s.takeAck tag, ?_⟩
  unfold State.takeAck
  simp only
  split
  · rfl
  · split <;> rfl

theorem State.takeReset_frame (s : State) :
    ∃ t : State, s.takeReset =
      { s with
        overlays := t.overlays, burnQueue := t.burnQueue, active := t.active, requester := t.requester,
        staging := t.staging, session := t.session, handler := t.handler, link := t.link } := by
  refine ⟨s.takeReset, ?_⟩
  unfold State.takeReset State.softReset State.setPending
  obtain ⟨_, h⟩ := State.endSession_frame s .port2
  rw [h]; clear h
  rfl

theorem State.takeFrame_frame (s : State) (type : FrameType) (tag code : Byte) (payload : Bytes) :
    ∃ t : State, s.takeFrame type tag code payload =
      { s with
        overlays := t.overlays, burnQueue := t.burnQueue, active := t.active, requester := t.requester,
        staging := t.staging, session := t.session, handler := t.handler, link := t.link } := by
  refine ⟨s.takeFrame type tag code payload, ?_⟩
  unfold State.takeFrame
  split
  · obtain ⟨_, h⟩ := State.takeReq_frame s tag code payload
    rw [h]
  · obtain ⟨_, h⟩ := State.takeAck_frame s tag
    rw [h]
  · obtain ⟨_, h⟩ := State.takeReset_frame s
    rw [h]
  · rfl

theorem State.withinFrame?_frame (s u : State) (h : s.withinFrame? = some u) :
    ∃ t : State, u = { s with link := t.link } := by
  unfold State.withinFrame? at h
  split at h <;> simp only [Option.some.injEq, reduceCtorEq] at h
  · exact ⟨s, h.symm⟩
  all_goals
    obtain ⟨t, e⟩ := State.takeStartMark_frame s
    exact ⟨t, h.symm.trans e⟩

/-- A frame received touches the link, port 2's handler and the blocks of a session end alone (R169, R171, R175,
R176). -/
theorem State.receiveWhole_frame (s : State) (type : FrameType) (tag code : Byte) (payload : Bytes) :
    ∃ t : State, s.receiveWhole type tag code payload =
      { s with
        overlays := t.overlays, burnQueue := t.burnQueue, active := t.active, requester := t.requester,
        staging := t.staging, session := t.session, handler := t.handler, link := t.link } := by
  refine ⟨s.receiveWhole type tag code payload, ?_⟩
  unfold State.receiveWhole State.endFrame
  split
  · rfl
  · obtain ⟨_, e⟩ := State.withinFrame?_frame s _ ‹_›
    subst e
    simp only
    split
    · obtain ⟨_, h⟩ := State.takeFrame_frame (State.bufferBytes _ (frameBytes type tag code payload)) type tag code payload
      rw [h]; clear h
      rfl
    · rfl

theorem State.receiveBytes_frame (s : State) (bytes : Bytes) (ending : FrameEnd) :
    ∃ t : State, s.receiveBytes bytes ending =
      { s with
        overlays := t.overlays, burnQueue := t.burnQueue, active := t.active, requester := t.requester,
        staging := t.staging, session := t.session, handler := t.handler, link := t.link } := by
  refine ⟨s.receiveBytes bytes ending, ?_⟩
  unfold State.receiveBytes State.endFrame
  split
  · rfl
  · obtain ⟨_, e⟩ := State.withinFrame?_frame s _ ‹_›
    subst e
    simp only
    split
    · obtain ⟨_, h⟩ := State.takeFrame_frame (State.bufferBytes _ bytes) _ _ _ _
      rw [h]; clear h
      rfl
    · rfl

theorem State.completeTurnaround_frame (s : State) :
    ∃ t : State, s.completeTurnaround =
      { s with session := t.session, link := t.link } := by
  refine ⟨s.completeTurnaround, ?_⟩
  unfold State.completeTurnaround State.beginNote
  split
  · rfl
  · split
    · rfl
    · rfl
    · split
      · simp only
        split <;> rfl
      · rfl

/-- A link loss touches the link, port 2's handler and the blocks of a session end alone (R177). -/
theorem State.loseLink_frame (s : State) (next : LinkState) :
    ∃ t : State, s.loseLink next =
      { s with
        overlays := t.overlays, burnQueue := t.burnQueue, active := t.active, requester := t.requester,
        staging := t.staging, session := t.session, handler := t.handler, link := t.link } := by
  refine ⟨s.loseLink next, ?_⟩
  unfold State.loseLink State.softReset
  simp only
  obtain ⟨_, h⟩ := State.endSession_frame _ .port2
  rw [h]; clear h
  rfl

theorem State.holdLow_frame (s : State) :
    ∃ t : State, s.holdLow =
      { s with
        overlays := t.overlays, burnQueue := t.burnQueue, active := t.active, requester := t.requester,
        staging := t.staging, session := t.session, handler := t.handler, link := t.link } := by
  refine ⟨s.holdLow, ?_⟩
  unfold State.holdLow
  split
  · rfl
  · rfl
  · obtain ⟨_, h⟩ := State.loseLink_frame s .heldLow
    rw [h]

theorem State.expireTimer_frame (s : State) :
    ∃ t : State, s.expireTimer =
      { s with
        overlays := t.overlays, burnQueue := t.burnQueue, active := t.active, requester := t.requester,
        staging := t.staging, session := t.session, handler := t.handler, link := t.link } := by
  refine ⟨s.expireTimer, ?_⟩
  unfold State.expireTimer
  split
  · split
    · rfl
    · obtain ⟨_, h⟩ := State.loseLink_frame s .idle
      rw [h]
  · rfl

/-- What is still due when a tick comes touches what a session end, the overlays and the port lines do. -/
theorem State.takeDue_frame (s : State) :
    ∃ t : State, s.takeDue =
      { s with
        overlays := t.overlays, burnQueue := t.burnQueue, active := t.active, requester := t.requester,
        staging := t.staging, session := t.session, handler := t.handler, window := t.window, link := t.link } := by
  refine ⟨s.takeDue, ?_⟩
  unfold State.takeDue State.expireOverlays
  obtain ⟨_, ho⟩ := State.removeOverlays_frame s (·.due) .overlayExpired (·.ownerPort)
  rw [ho]
  obtain ⟨_, hs⟩ := State.settle_frame { s with overlays := _, session := _ }
  rw [hs]
  simp only
  split <;> split <;> first
    | rfl
    | (obtain ⟨_, ht⟩ := State.expireTimer_frame _
       rw [ht]
       obtain ⟨_, hs⟩ := State.settle_frame _
       rw [hs])

/-- A tick touches no more than the expiries it finds due (R113, R175). -/
theorem State.tick_frame (s : State) :
    ∃ t : State, s.tick =
      { s with
        overlays := t.overlays, burnQueue := t.burnQueue, active := t.active, requester := t.requester,
        staging := t.staging, session := t.session, handler := t.handler, window := t.window, link := t.link } := by
  refine ⟨s.tick, ?_⟩
  obtain ⟨_, h⟩ := State.takeDue_frame s
  unfold State.tick State.countTick
  rw [h]

theorem State.takeEndMark_frame (s : State) :
    ∃ t : State, s.takeEndMark =
      { s with
        overlays := t.overlays, burnQueue := t.burnQueue, active := t.active, requester := t.requester,
        staging := t.staging, session := t.session, handler := t.handler, link := t.link } := by
  refine ⟨s.takeEndMark, ?_⟩
  unfold State.takeEndMark
  split
  · obtain ⟨_, h⟩ := State.receiveBytes_frame s _ .endMark
    rw [h]
  · rfl

theorem State.takeLow_frame (s : State) (ns : Nat) :
    ∃ t : State, s.takeLow ns =
      { s with
        overlays := t.overlays, burnQueue := t.burnQueue, active := t.active, requester := t.requester,
        staging := t.staging, session := t.session, handler := t.handler, link := t.link } := by
  refine ⟨s.takeLow ns, ?_⟩
  unfold State.takeLow
  split
  · obtain ⟨_, h⟩ := State.takeStartMark_frame s
    rw [h]
  · obtain ⟨_, h⟩ := State.holdLow_frame s
    rw [h]
  · rfl
  · split <;> rfl
  · split <;> rfl
  · split
    · obtain ⟨_, h⟩ := State.takeEndMark_frame s
      rw [h]
    · rfl
  · split <;> rfl

end Sys2Proof.Machine
end

