-- ==== Sys2Proof/Laws/Memory.lean ====
section
/-! SUPPORT. The Journal Array's cells: reads after writes, the canonical form kept by every operation, and equal
reads of equal arrays. -/

namespace Sys2Proof.Machine

/-! ### The canonical form, one entry at a time -/

theorem Memory.wf_cons {a : Nat} {b : Byte} {m : Memory} :
    Memory.wf ((a, b) :: m) = true ↔
      (a < Config.arrayBytes ∧ b ≠ 0 ∧ (∀ c ∈ m, a < c.1) ∧ Memory.wf m = true) := by
  induction m generalizing a b with
  | nil => simp [Memory.wf]
  | cons c rest ih =>
    obtain ⟨c, d⟩ := c
    have tail := @ih c d
    simp only [Memory.wf, Bool.and_eq_true, decide_eq_true_eq, List.mem_cons, forall_eq_or_imp]
    constructor
    · rintro ⟨⟨hac, hb⟩, hm⟩
      obtain ⟨hc, hd, hall, hw⟩ := tail.mp hm
      exact ⟨by omega, hb, ⟨hac, fun e he => lt_trans hac (hall e he)⟩, hm⟩
    · rintro ⟨ha, hb, ⟨hac, _⟩, hm⟩
      exact ⟨⟨hac, hb⟩, hm⟩

theorem Memory.read_of_all_gt {m : Memory} {n : Nat} (h : ∀ c ∈ m, n < c.1) : m.read n = 0 := by
  induction m with
  | nil => rfl
  | cons c rest ih =>
    obtain ⟨a, b⟩ := c
    have ha : n < a := h (a, b) (by simp)
    have hne : a ≠ n := by omega
    simp only [Memory.read, if_neg hne]
    exact ih fun c hc => h c (by simp [hc])

theorem Memory.read_of_le {m : Memory} (hw : m.wf = true) {n : Nat} (hn : Config.arrayBytes ≤ n) :
    m.read n = 0 := by
  induction m with
  | nil => rfl
  | cons c rest ih =>
    obtain ⟨a, b⟩ := c
    obtain ⟨ha, _, _, hr⟩ := Memory.wf_cons.mp hw
    simp only [Memory.read]
    rw [if_neg (by omega), ih hr]

/-! ### Insert -/

theorem Memory.mem_insert {m : Memory} {o : Nat} {v : Byte} {c : Host.Cell} (h : c ∈ m.insert o v) :
    c ∈ m ∨ (c = (o, v) ∧ v ≠ 0) := by
  induction m with
  | nil => by_cases hv : v = 0 <;> simp_all [Memory.insert]
  | cons e rest ih =>
    by_cases below : e.1 < o
    · rw [Memory.insert, if_pos below, List.mem_cons] at h
      exact h.elim (fun first => .inl (first ▸ List.mem_cons_self)) fun later =>
        (ih later).imp_left (List.mem_cons_of_mem e)
    · by_cases hv : v = 0 <;> by_cases same : e.1 = o <;>
        simp only [Memory.insert, below, same, hv, lt_irrefl, if_true, if_false, List.mem_cons] at h ⊢ <;> tauto

theorem Memory.wf_insert {m : Memory} (hw : m.wf = true) {o : Nat} (ho : o < Config.arrayBytes)
    (v : Byte) : (m.insert o v).wf = true := by
  induction m with
  | nil =>
    simp only [Memory.insert]
    split
    · rfl
    · exact Memory.wf_cons.mpr ⟨ho, ‹_›, by simp, rfl⟩
  | cons c rest ih =>
    obtain ⟨a, b⟩ := c
    obtain ⟨ha, hb, hall, hr⟩ := Memory.wf_cons.mp hw
    simp only [Memory.insert]
    split
    next hao =>
      refine Memory.wf_cons.mpr ⟨ha, hb, fun e he => ?_, ih hr⟩
      rcases Memory.mem_insert he with he | ⟨rfl, _⟩
      · exact hall e he
      · exact hao
    next hao =>
      by_cases heq : a = o
      · subst heq
        simp only [if_true]
        split
        · exact hr
        · exact Memory.wf_cons.mpr ⟨ho, ‹_›, hall, hr⟩
      · simp only [if_neg heq]
        split
        · exact hw
        · refine Memory.wf_cons.mpr ⟨ho, ‹_›, fun e he => ?_, hw⟩
          rcases List.mem_cons.mp he with rfl | he
          · show o < a
            omega
          · have := hall e he
            omega

/-- A cell reads what was put there; every other cell reads as before. -/
theorem Memory.read_insert {m : Memory} (hw : m.wf = true) (o a : Nat) (v : Byte) :
    (m.insert o v).read a = if a = o then v else m.read a := by
  induction m with
  | nil =>
    simp only [Memory.insert]
    by_cases hv : v = 0
    · simp [hv, Memory.read]
    · simp only [if_neg hv, Memory.read]
      by_cases ha : o = a
      · simp [ha]
      · simp [ha, Ne.symm ha]
  | cons c rest ih =>
    obtain ⟨k, b⟩ := c
    obtain ⟨_, _, hall, hr⟩ := Memory.wf_cons.mp hw
    simp only [Memory.insert]
    split
    next hko =>
      simp only [Memory.read, ih hr]
      by_cases hk : k = a
      · subst hk
        simp [Nat.ne_of_lt hko]
      · simp [hk]
    next hko =>
      by_cases heq : k = o
      · subst heq
        have hk0 : Memory.read rest k = 0 := Memory.read_of_all_gt hall
        by_cases hv : v = 0
        · simp only [if_true, hv, Memory.read]
          by_cases ha : a = k
          · simp [ha, hk0]
          · simp [ha, Ne.symm ha]
        · simp only [if_true, if_neg hv, Memory.read]
          by_cases ha : a = k
          · simp [ha]
          · simp [ha, Ne.symm ha]
      · have ho0 : Memory.read ((k, b) :: rest) o = 0 := by
          refine Memory.read_of_all_gt fun e he => ?_
          rcases List.mem_cons.mp he with rfl | he
          · show o < k
            omega
          · have := hall e he
            omega
        simp only [if_neg heq]
        by_cases hv : v = 0
        · simp only [hv, if_true]
          by_cases ha : a = o
          · simp [ha, ho0]
          · simp [ha]
        · simp only [if_neg hv]
          by_cases ha : a = o
          · simp [ha, Memory.read]
          · rw [if_neg ha]
            conv_lhs => rw [Memory.read, if_neg (Ne.symm ha)]

/-! ### Write and setBits -/

theorem Memory.wf_write {m : Memory} (hw : m.wf = true) (o : Nat) (v : Byte) :
    (m.write o v).wf = true := by
  unfold Memory.write
  split
  · exact Memory.wf_insert hw ‹_› v
  · exact hw

theorem Memory.read_write {m : Memory} (hw : m.wf = true) (o a : Nat) (v : Byte) :
    (m.write o v).read a = if a = o ∧ o < Config.arrayBytes then v else m.read a := by
  unfold Memory.write
  by_cases ho : o < Config.arrayBytes
  · simp [ho, Memory.read_insert hw]
  · simp [ho]

theorem Memory.wf_setBits {m : Memory} (hw : m.wf = true) (o : Nat) (v : Byte) :
    (m.setBits o v).wf = true := Memory.wf_write hw _ _

/-- A burn adds its bits to the cell and changes no other cell (R26). -/
theorem Memory.read_setBits {m : Memory} (hw : m.wf = true) (o a : Nat) (v : Byte) :
    (m.setBits o v).read a =
      if a = o ∧ o < Config.arrayBytes then m.read o ||| v else m.read a :=
  Memory.read_write hw o a _

/-- Every cell keeps the bits it had (R26). -/
theorem Memory.read_setBits_mono {m : Memory} (hw : m.wf = true) (o a : Nat) (v : Byte) :
    m.read a &&& ~~~(m.setBits o v).read a = 0 := by
  rw [Memory.read_setBits hw]
  split
  next h =>
    rw [h.1]
    ext i
    simp
    intro h
    simp [h]
  next => simp

/-! ### Equal reads, equal arrays -/

theorem Memory.eq_of_read_eq {m n : Memory} (hm : m.wf = true) (hn : n.wf = true)
    (h : ∀ a, m.read a = n.read a) : m = n := by
  induction m generalizing n with
  | nil =>
    cases n with
    | nil => rfl
    | cons c rest =>
      obtain ⟨a, b⟩ := c
      have hb := (Memory.wf_cons.mp hn).2.1
      have := h a
      simp [Memory.read] at this
      exact absurd this.symm hb
  | cons c rest ih =>
    obtain ⟨a, b⟩ := c
    obtain ⟨_, hb, hall, hr⟩ := Memory.wf_cons.mp hm
    cases n with
    | nil =>
      have := h a
      simp [Memory.read] at this
      exact absurd this hb
    | cons d rest' =>
      obtain ⟨a', b'⟩ := d
      obtain ⟨_, hb', hall', hr'⟩ := Memory.wf_cons.mp hn
      have haa : a = a' := by
        rcases lt_trichotomy a a' with hlt | heq | hgt
        · have h1 := h a
          have h2 : Memory.read ((a', b') :: rest') a = 0 :=
            Memory.read_of_all_gt fun e he => by
              rcases List.mem_cons.mp he with rfl | he
              · exact hlt
              · exact lt_trans hlt (hall' e he)
          rw [h2] at h1
          simp [Memory.read] at h1
          exact absurd h1 hb
        · exact heq
        · have h1 := h a'
          have h2 : Memory.read ((a, b) :: rest) a' = 0 :=
            Memory.read_of_all_gt fun e he => by
              rcases List.mem_cons.mp he with rfl | he
              · exact hgt
              · exact lt_trans hgt (hall e he)
          rw [h2] at h1
          simp [Memory.read] at h1
          exact absurd h1.symm hb'
      subst haa
      have hbb : b = b' := by simpa [Memory.read] using h a
      subst hbb
      congr 1
      refine ih hr hr' fun x => ?_
      have hx := h x
      simp only [Memory.read] at hx
      by_cases hax : a = x
      · subst hax
        rw [Memory.read_of_all_gt hall, Memory.read_of_all_gt hall']
      · simpa [hax] using hx

/-- The array after a device reset from the factory has the canonical form. -/
theorem State.reset_array_wf : State.reset.array.wf = true := rfl

end Sys2Proof.Machine
end

