-- ==== Sys2Proof/Laws/PerInstr.lean ====
section
/-! SUPPORT. One fact of each command as syntax: the argument bytes that a well-formed command carries in a record
or a REQ frame are at most the 60 that one carries (R141). -/

namespace Sys2Proof.Laws.Wf

open Sys2Proof.Machine

/-- The argument bytes of the record or REQ frame that a command stands for. -/
def args? : Instr → Option Bytes
  | .get _ _ key => some (bytes16 key)
  | .getDetail _ _ key => some (bytes16 key)
  | .catalogRead _ _ position => some [position]
  | .openSession _ _ => some []
  | .closeSession _ _ => some []
  | .watch _ _ first last => some (bytes16 first ++ bytes16 last)
  | .unwatch _ _ first last => some (bytes16 first ++ bytes16 last)
  | .noticeRead _ _ => some []
  | .stageAssign _ _ key value guard => some (stageAssignArgs key value guard)
  | .stageRetire _ _ key guard => some (stageRetireArgs key guard)
  | .stagePin _ _ key => some (bytes16 key)
  | .stageDrop _ _ key => some (bytes16 key)
  | .stageClear _ _ => some []
  | .stageList _ _ index => some [index]
  | .commit _ _ => some []
  | .abort _ _ => some []
  | .commitResult _ _ => some []
  | .overlaySet _ _ key value lifetime bound => some (overlaySetArgs key value lifetime bound)
  | .overlayClear _ _ key => some (bytes16 key)
  | .overlayList _ _ index => some [index]
  | .revoke _ _ seq => some (bytes16 seq)
  | .rebuild _ _ => some []
  | .journalStat _ _ => some []
  | .journalRead _ _ offset length => some (bytes16 offset ++ [length])
  | .entryRead _ _ seq => some (bytes16 seq)
  | .linkStat _ _ clear => some [flagByte clear]
  | .unknownRequestKind _ _ _ args => some args
  | .heldJournalReadServed _ => none
  | .go _ => none
  | .take _ => none
  | .portReset _ => none
  | .unknownControlCode _ _ => none
  | .requestAreaWrite _ _ _ => none
  | .attnEnableWrite _ _ => none
  | .windowWriteIgnored _ _ _ => none
  | .req _ _ args => some args
  | .ack _ _ => none
  | .resetFrame _ _ => none
  | .frameDiscarded _ _ => none
  | .turnaroundComplete => none
  | .frameSendComplete => none
  | .ackTimerExpiry => none
  | .linkLoss => none
  | .linkLineReleased => none
  | .deviceReset _ => none
  | .resetRelease _ _ => none
  | .startupReplayDone => none
  | .rebuildInstall => none
  | .timebaseTick => none
  | .overlayExpired => none
  | .burnPulse _ => none
  | .verify => none
  | .cellBitGain _ _ => none
  | .startMark => none
  | .answerReady _ => none
  | .burnEnChange _ => none
  | .windowPointerSet _ _ => none
  | .windowByteRead _ => none
  | .preambleOrNoise _ => none

/-- A well-formed command carries at most 60 argument bytes (R141). -/
def Statement (i : Instr) : Prop :=
  i.wf = true → ∀ args, args? i = some args → args.length ≤ Config.maxArgs

theorem get (p : Port) (tag : Byte) (key : Word16) : Statement (.get p tag key) := by
  intro _ args ha
  cases ha
  simp [bytes16, bytesOfNat, Config.maxArgs]

theorem getDetail (p : Port) (tag : Byte) (key : Word16) : Statement (.getDetail p tag key) := by
  intro _ args ha
  cases ha
  simp [bytes16, bytesOfNat, Config.maxArgs]

theorem catalogRead (p : Port) (tag : Byte) (position : Byte) : Statement (.catalogRead p tag position) := by
  intro _ args ha
  cases ha
  simp [Config.maxArgs]

theorem openSession (p : Port) (tag : Byte) : Statement (.openSession p tag) := by
  intro _ args ha
  cases ha
  simp [Config.maxArgs]

theorem closeSession (p : Port) (tag : Byte) : Statement (.closeSession p tag) := by
  intro _ args ha
  cases ha
  simp [Config.maxArgs]

theorem watch (p : Port) (tag : Byte) (first last : Word16) : Statement (.watch p tag first last) := by
  intro _ args ha
  cases ha
  simp [bytes16, bytesOfNat, Config.maxArgs]

theorem unwatch (p : Port) (tag : Byte) (first last : Word16) : Statement (.unwatch p tag first last) := by
  intro _ args ha
  cases ha
  simp [bytes16, bytesOfNat, Config.maxArgs]

theorem noticeRead (p : Port) (tag : Byte) : Statement (.noticeRead p tag) := by
  intro _ args ha
  cases ha
  simp [Config.maxArgs]

theorem stageAssign (p : Port) (tag : Byte) (key : Word16) (value : Bytes) (guard : GuardArg) :
    Statement (.stageAssign p tag key value guard) := by
  intro hw args ha
  cases ha
  simp only [Instr.wf, Bool.and_eq_true, fitsRecord, decide_eq_true_eq] at hw
  exact hw.2

theorem stageRetire (p : Port) (tag : Byte) (key : Word16) (guard : GuardArg) :
    Statement (.stageRetire p tag key guard) := by
  intro hw args ha
  cases ha
  simp only [Instr.wf, Bool.and_eq_true, fitsRecord, decide_eq_true_eq] at hw
  exact hw.2

theorem stagePin (p : Port) (tag : Byte) (key : Word16) : Statement (.stagePin p tag key) := by
  intro _ args ha
  cases ha
  simp [bytes16, bytesOfNat, Config.maxArgs]

theorem stageDrop (p : Port) (tag : Byte) (key : Word16) : Statement (.stageDrop p tag key) := by
  intro _ args ha
  cases ha
  simp [bytes16, bytesOfNat, Config.maxArgs]

theorem stageClear (p : Port) (tag : Byte) : Statement (.stageClear p tag) := by
  intro _ args ha
  cases ha
  simp [Config.maxArgs]

theorem stageList (p : Port) (tag : Byte) (index : Byte) : Statement (.stageList p tag index) := by
  intro _ args ha
  cases ha
  simp [Config.maxArgs]

theorem commit (p : Port) (tag : Byte) : Statement (.commit p tag) := by
  intro _ args ha
  cases ha
  simp [Config.maxArgs]

theorem abort (p : Port) (tag : Byte) : Statement (.abort p tag) := by
  intro _ args ha
  cases ha
  simp [Config.maxArgs]

theorem commitResult (p : Port) (tag : Byte) : Statement (.commitResult p tag) := by
  intro _ args ha
  cases ha
  simp [Config.maxArgs]

theorem overlaySet (p : Port) (tag : Byte) (key : Word16) (value : Bytes) (lifetime : Word16) (bound : Bool) :
    Statement (.overlaySet p tag key value lifetime bound) := by
  intro hw args ha
  cases ha
  simp only [Instr.wf, fitsRecord, decide_eq_true_eq] at hw
  exact hw

theorem overlayClear (p : Port) (tag : Byte) (key : Word16) : Statement (.overlayClear p tag key) := by
  intro _ args ha
  cases ha
  simp [bytes16, bytesOfNat, Config.maxArgs]

theorem overlayList (p : Port) (tag : Byte) (index : Byte) : Statement (.overlayList p tag index) := by
  intro _ args ha
  cases ha
  simp [Config.maxArgs]

theorem revoke (p : Port) (tag : Byte) (seq : Word16) : Statement (.revoke p tag seq) := by
  intro _ args ha
  cases ha
  simp [bytes16, bytesOfNat, Config.maxArgs]

theorem rebuild (p : Port) (tag : Byte) : Statement (.rebuild p tag) := by
  intro _ args ha
  cases ha
  simp [Config.maxArgs]

theorem journalStat (p : Port) (tag : Byte) : Statement (.journalStat p tag) := by
  intro _ args ha
  cases ha
  simp [Config.maxArgs]

theorem journalRead (p : Port) (tag : Byte) (offset : Word16) (length : Byte) :
    Statement (.journalRead p tag offset length) := by
  intro _ args ha
  cases ha
  simp [bytes16, bytesOfNat, Config.maxArgs]

theorem entryRead (p : Port) (tag : Byte) (seq : Word16) : Statement (.entryRead p tag seq) := by
  intro _ args ha
  cases ha
  simp [bytes16, bytesOfNat, Config.maxArgs]

theorem linkStat (p : Port) (tag : Byte) (clear : Bool) : Statement (.linkStat p tag clear) := by
  intro _ args ha
  cases ha
  simp [Config.maxArgs]

theorem unknownRequestKind (p : Port) (tag : Byte) (kind : Byte) (args : Bytes) :
    Statement (.unknownRequestKind p tag kind args) := by
  intro hw args ha
  cases ha
  simp only [Instr.wf, Bool.and_eq_true, fitsRecord, decide_eq_true_eq] at hw
  exact hw.2

theorem heldJournalReadServed (p : Port) : Statement (.heldJournalReadServed p) := by
  intro _ _ ha
  cases ha

theorem go (w : WindowPort) : Statement (.go w) := by
  intro _ _ ha
  cases ha

theorem take (w : WindowPort) : Statement (.take w) := by
  intro _ _ ha
  cases ha

theorem portReset (w : WindowPort) : Statement (.portReset w) := by
  intro _ _ ha
  cases ha

theorem unknownControlCode (w : WindowPort) (code : Byte) : Statement (.unknownControlCode w code) := by
  intro _ _ ha
  cases ha

theorem requestAreaWrite (w : WindowPort) (offset data : Byte) :
    Statement (.requestAreaWrite w offset data) := by
  intro _ _ ha
  cases ha

theorem attnEnableWrite (w : WindowPort) (data : Byte) : Statement (.attnEnableWrite w data) := by
  intro _ _ ha
  cases ha

theorem windowWriteIgnored (w : WindowPort) (offset data : Byte) :
    Statement (.windowWriteIgnored w offset data) := by
  intro _ _ ha
  cases ha

theorem req (tag kind : Byte) (args : Bytes) : Statement (.req tag kind args) := by
  intro hw args ha
  cases ha
  simp only [Instr.wf, fitsRecord, decide_eq_true_eq] at hw
  exact hw

theorem ack (tag code : Byte) : Statement (.ack tag code) := by
  intro _ _ ha
  cases ha

theorem resetFrame (tag code : Byte) : Statement (.resetFrame tag code) := by
  intro _ _ ha
  cases ha

theorem frameDiscarded (bytes : Bytes) (ending : FrameEnd) : Statement (.frameDiscarded bytes ending) := by
  intro _ _ ha
  cases ha

theorem turnaroundComplete : Statement .turnaroundComplete := by
  intro _ _ ha
  cases ha

theorem frameSendComplete : Statement .frameSendComplete := by
  intro _ _ ha
  cases ha

theorem ackTimerExpiry : Statement .ackTimerExpiry := by
  intro _ _ ha
  cases ha

theorem linkLoss : Statement .linkLoss := by
  intro _ _ ha
  cases ha

theorem linkLineReleased : Statement .linkLineReleased := by
  intro _ _ ha
  cases ha

theorem deviceReset (cut : Byte) : Statement (.deviceReset cut) := by
  intro _ _ ha
  cases ha

theorem resetRelease (strap0 strap1 : StrapPin) : Statement (.resetRelease strap0 strap1) := by
  intro _ _ ha
  cases ha

theorem startupReplayDone : Statement .startupReplayDone := by
  intro _ _ ha
  cases ha

theorem rebuildInstall : Statement .rebuildInstall := by
  intro _ _ ha
  cases ha

theorem timebaseTick : Statement .timebaseTick := by
  intro _ _ ha
  cases ha

theorem overlayExpired : Statement .overlayExpired := by
  intro _ _ ha
  cases ha

theorem burnPulse (taken : Byte) : Statement (.burnPulse taken) := by
  intro _ _ ha
  cases ha

theorem verify : Statement .verify := by
  intro _ _ ha
  cases ha

theorem cellBitGain (offset : Word16) (bits : Byte) : Statement (.cellBitGain offset bits) := by
  intro _ _ ha
  cases ha

theorem startMark : Statement .startMark := by
  intro _ _ ha
  cases ha

theorem answerReady (p : Port) : Statement (.answerReady p) := by
  intro _ _ ha
  cases ha

theorem burnEnChange (level : Bool) : Statement (.burnEnChange level) := by
  intro _ _ ha
  cases ha

theorem windowPointerSet (w : WindowPort) (byte : Byte) : Statement (.windowPointerSet w byte) := by
  intro _ _ ha
  cases ha

theorem windowByteRead (w : WindowPort) : Statement (.windowByteRead w) := by
  intro _ _ ha
  cases ha

theorem preambleOrNoise (lowNs : Nat) : Statement (.preambleOrNoise lowNs) := by
  intro _ _ ha
  cases ha

end Sys2Proof.Laws.Wf
end

