-- ==== Sys2Proof/Laws/Replay.lean ====
section
/-! SUPPORT. What HIGHWATER's two scans rest on (R85): the cells that stand in a canonical array, and a running
maximum over the entries of a list that a test admits. -/

namespace Sys2Proof.Machine

/-- In a canonical array the cells that stand are the offsets that read other than 00h. -/
theorem Memory.mem_iff_read {m : Memory} (hw : m.wf = true) (a : Nat) (b : Byte) :
    (a, b) ∈ m ↔ m.read a = b ∧ b ≠ 0 := by
  induction m with
  | nil => exact ⟨(nomatch ·), fun ⟨h, hb⟩ => absurd h.symm hb⟩
  | cons c rest ih =>
    obtain ⟨c, d⟩ := c
    obtain ⟨_, hd, above, hr⟩ := Memory.wf_cons.mp hw
    simp only [List.mem_cons, Prod.mk.injEq, Memory.read]
    by_cases same : c = a
    · subst same
      have absent : (c, b) ∉ rest := fun h => lt_irrefl c (above _ h)
      simp only [true_and, absent, or_false, if_true]
      exact ⟨fun h => ⟨h.symm, h ▸ hd⟩, fun h => h.1.symm⟩
    · simp [same, Ne.symm same, ih hr]

/-- A running maximum over the entries that a test admits bounds each of them and the start, and is one of these. -/
theorem foldl_max_spec {α : Type} (l : List α) (admits : α → Bool) (height : α → Nat) (start : Nat) :
    let top := l.foldl (fun t x => if admits x then max t (height x) else t) start
    start ≤ top ∧ (∀ x ∈ l, admits x = true → height x ≤ top) ∧
    (top = start ∨ ∃ x ∈ l, admits x = true ∧ top = height x) := by
  induction l generalizing start with
  | nil => simp
  | cons x rest ih =>
    simp only [List.foldl_cons]
    obtain ⟨low, bounds, found⟩ := ih (if admits x then max start (height x) else start)
    by_cases hx : admits x = true
    · simp only [hx, if_true] at low bounds found ⊢
      refine ⟨by omega, ?_, ?_⟩
      · rintro y (_ | hy) ay
        · omega
        · exact bounds y (by assumption) ay
      · obtain found | ⟨y, hy, ay, top⟩ := found
        · rcases max_choice start (height x) with h | h
          · exact .inl (found.trans h)
          · exact .inr ⟨x, by simp, hx, found.trans h⟩
        · exact .inr ⟨y, by simp [hy], ay, top⟩
    · simp only [hx] at low bounds found ⊢
      refine ⟨by simpa using low, ?_, ?_⟩
      · rintro y (_ | hy) ay
        · exact absurd ay hx
        · exact bounds y (by assumption) ay
      · exact found.imp (by simp) fun ⟨y, hy, r⟩ => ⟨y, by simp [hy], r⟩

end Sys2Proof.Machine
end

