-- ==== Sys2Proof/Laws/Serve.lean ====
section
/-! SUPPORT. Everything a request can do at the block that owns its state, said once, with what the block tested
before. -/

namespace Sys2Proof.Machine

/-- What a request of port `p` leaves of `s` at its block (R144). -/
inductive ServeEffect (s : State) (p : Port) : State → Prop where
  | unchanged : ServeEffect s p s
  | opened : ServeEffect s p (s.openSession p)
  | closed : (s.session.get p).isOpen = true → ServeEffect s p (s.endSession p)
  | watching (watches : List (Nat × Nat)) : (s.session.get p).isOpen = true →
      ServeEffect s p (s.setSession p { s.session.get p with watches := watches })
  | noticeRead (n : Notice) (rest : List Notice) : (s.session.get p).isOpen = true → p ≠ .port2 →
      (s.session.get p).queue = n :: rest →
      ServeEffect s p (s.setSession p { s.session.get p with queue := rest })
  | staged (d : Descriptor) (actions : List Action) : (s.session.get p).isOpen = true →
      ((s.staging.get p).state = .empty ∨ (s.staging.get p).state = .building) →
      fitsList actions = true →
      ((∃ op guard, actions = stageAction (s.staging.get p).actions d.key op guard) ∨
        actions = stagePinFlag (s.staging.get p).actions d.key) →
      ServeEffect s p (s.setStaging p (listOf actions))
  | dropped (key : Nat) : (s.session.get p).isOpen = true →
      ((s.staging.get p).state = .empty ∨ (s.staging.get p).state = .building) →
      ServeEffect s p (s.setStaging p (listOf ((s.staging.get p).actions.filter (·.key ≠ key))))
  | cleared : (s.session.get p).isOpen = true →
      ((s.staging.get p).state = .empty ∨ (s.staging.get p).state = .building) →
      ServeEffect s p (s.setStaging p ⟨.empty, []⟩)
  | committed : (s.session.get p).isOpen = true → s.hasJob p = false →
      (s.staging.get p).state ≠ .empty →
      ServeEffect s p
        (((s.setStaging p { s.staging.get p with state := .queued }).enqueue p .commit).arbitrate)
  | aborted : (s.session.get p).isOpen = true → (s.staging.get p).state = .queued →
      ServeEffect s p
        (((s.recordWithdrawn p (s.queuedGeneration p)).withoutJobs p).setStaging p
          ⟨.building, (s.staging.get p).actions⟩)
  | overlaid (d : Descriptor) (value : Bytes) (lifetime : Nat) (bound : Bool) :
      (s.session.get p).isOpen = true → s.rebuildRuns = false → descriptor? d.key = some d →
      d.overlayPermitted = true → s.isPinned d.key = false → overlayRoomRefusal s p d.key = none →
      ServeEffect s p (s.setOverlay p d.key value lifetime bound)
  | uncovered (key : Nat) : (s.session.get p).isOpen = true →
      ServeEffect s p (s.removeOverlays (·.key = key) .overlayClear fun _ => p)
  | revoking (seq : Nat) : (s.session.get p).isOpen = true → s.hasJob p = false → seq ≠ 0 →
      seq ≤ Config.maxSlots → ServeEffect s p ((s.enqueue p (.revoke seq)).arbitrate)
  | rebuilding : (s.session.get p).isOpen = true → s.replay = .idle →
      ServeEffect s p
        ({ s with
            replay := .pending
            requester := some ⟨p, (s.session.get p).generation, true⟩ }.arbitrate)
  | counters : ServeEffect s p (s.setLink { s.link with crcErrors := 0, collisions := 0, losses := 0 })

theorem descriptor?_key {key : Nat} {d : Descriptor} (h : descriptor? key = some d) : d.key = key := by
  unfold descriptor? at h
  split at h
  · simp only [Option.some.injEq] at h
    rw [← h]
    rfl
  · simp at h

theorem stagingRefusal_none {s : State} {p : Port} (h : stagingRefusal s p = none) :
    (s.session.get p).isOpen = true ∧
      ((s.staging.get p).state = .empty ∨ (s.staging.get p).state = .building) := by
  unfold stagingRefusal at h
  split at h
  · simp at h
  next ho =>
    refine ⟨by simpa using ho, ?_⟩
    revert h
    cases (s.staging.get p).state <;> simp

theorem stageChange_effect {s : State} {p : Port} {d : Descriptor} {actions : List Action}
    (ho : (s.session.get p).isOpen = true)
    (hl : (s.staging.get p).state = .empty ∨ (s.staging.get p).state = .building)
    (ha : (∃ op guard, actions = stageAction (s.staging.get p).actions d.key op guard) ∨
      actions = stagePinFlag (s.staging.get p).actions d.key) :
    ServeEffect s p (stageChange s p d actions).1 := by
  unfold stageChange
  split
  · exact .unchanged
  · split
    · exact .unchanged
    · split
      · exact .unchanged
      next hf => exact .staged d actions ho hl (by simpa using hf) ha

/-- What a request can do. -/
theorem serve_effect (s : State) (p : Port) (q : Request) : ServeEffect s p (s.serve p q).1 := by
  cases q <;> simp only [State.serve]
  case get key =>
    unfold serveGet
    split
    · exact .unchanged
    · split <;> exact .unchanged
  case getDetail key =>
    unfold serveGetDetail
    split
    · exact .unchanged
    · split
      · exact .unchanged
      · split <;> exact .unchanged
  case catalogRead =>
    unfold serveCatalogRead
    split <;> exact .unchanged
  case openSession => exact .opened
  case closeSession =>
    unfold serveClose
    split
    · exact .unchanged
    next h => exact .closed (by simpa using h)
  case watch first last =>
    unfold serveWatch
    simp only
    split
    · exact .unchanged
    next h =>
      split
      · exact .unchanged
      · split
        · exact .unchanged
        · exact .watching _ (by simpa using h)
  case unwatch first last =>
    unfold serveUnwatch
    simp only
    split
    · exact .unchanged
    next h =>
      split
      · exact .watching _ (by simpa using h)
      · exact .unchanged
  case noticeRead =>
    unfold serveNoticeRead
    simp only
    split
    · exact .unchanged
    next h =>
      split
      · exact .unchanged
      next hp =>
        split
        · exact .unchanged
        next n rest hq => exact .noticeRead n rest (by simpa using h) hp hq
  case stageAssign key value guard =>
    unfold serveStageAssign
    split
    · exact .unchanged
    next h =>
      split
      · exact .unchanged
      next d hd =>
        split
        · exact .unchanged
        · split
          · exact .unchanged
          · obtain ⟨ho, hl⟩ := stagingRefusal_none h
            exact stageChange_effect ho hl (.inl ⟨.assign value, guard, by rw [descriptor?_key hd]⟩)
  case stageRetire key guard =>
    unfold serveStageRetire
    split
    · exact .unchanged
    next h =>
      split
      · exact .unchanged
      next d hd =>
        split
        · exact .unchanged
        · obtain ⟨ho, hl⟩ := stagingRefusal_none h
          exact stageChange_effect ho hl (.inl ⟨.retire, guard, by rw [descriptor?_key hd]⟩)
  case stagePin key =>
    unfold serveStagePin
    split
    · exact .unchanged
    next h =>
      split
      · exact .unchanged
      next d hd =>
        obtain ⟨ho, hl⟩ := stagingRefusal_none h
        refine stageChange_effect ho hl (.inr ?_)
        rw [descriptor?_key hd]
  case stageDrop key =>
    unfold serveStageDrop
    split
    · exact .unchanged
    next h =>
      simp only
      split
      · exact .unchanged
      · split
        · exact .unchanged
        · exact .dropped key (stagingRefusal_none h).1 (stagingRefusal_none h).2
  case stageClear =>
    unfold serveStageClear
    split
    · exact .unchanged
    next h => exact .cleared (stagingRefusal_none h).1 (stagingRefusal_none h).2
  case stageList index =>
    unfold serveStageList
    split
    · exact .unchanged
    · simp only
      split <;> exact .unchanged
  case commit =>
    unfold serveCommit
    simp only
    split
    · exact .unchanged
    next ho =>
      split
      · exact .unchanged
      next hj =>
        split
        · exact .unchanged
        next he => exact .committed (by simpa using ho) (by simpa using hj) he
  case abort =>
    unfold serveAbort
    split
    · exact .unchanged
    next ho =>
      split
      next hq => exact .aborted (by simpa using ho) hq
      · exact .unchanged
      · exact .unchanged
  case commitResult => exact .unchanged
  case overlaySet key value lifetime bound =>
    unfold serveOverlaySet
    split
    · exact .unchanged
    next ho =>
      split
      · exact .unchanged
      next hr =>
        split
        · exact .unchanged
        next d hd =>
          split
          · exact .unchanged
          next hv =>
            split
            · exact .unchanged
            · split
              · exact .unchanged
              · split
                · exact .unchanged
                · split
                  · exact .unchanged
                  next hp =>
                    split
                    · exact .unchanged
                    · split
                      · exact .unchanged
                      next hroom =>
                        have hk := descriptor?_key hd
                        rw [← hk] at hd hp hroom ⊢
                        exact .overlaid d value lifetime bound (by simpa using ho) (by simpa using hr)
                          hd (by simpa using hv) (by simpa using hp) hroom
  case overlayClear key =>
    unfold serveOverlayClear
    split
    · exact .unchanged
    next ho =>
      split
      · exact .unchanged
      · split
        · exact .unchanged
        · split
          · exact .unchanged
          · split
            · exact .unchanged
            · exact .uncovered key (by simpa using ho)
  case overlayList index =>
    unfold serveOverlayList
    split
    · exact .unchanged
    · split <;> exact .unchanged
  case revoke seq =>
    unfold serveRevoke
    split
    · exact .unchanged
    next ho =>
      split
      · exact .unchanged
      next hs =>
        split
        · exact .unchanged
        next hj =>
          simp only [not_or, Nat.not_lt] at hs
          exact .revoking seq (by simpa using ho) (by simpa using hj) hs.1 hs.2
  case rebuild =>
    unfold serveRebuild
    split
    · exact .unchanged
    next ho =>
      split
      · exact .unchanged
      next hr => exact .rebuilding (by simpa using ho) (by simpa using hr)
  case journalStat => exact .unchanged
  case journalRead offset length =>
    unfold serveJournalRead
    split
    · exact .unchanged
    · split <;> exact .unchanged
  case entryRead seq =>
    unfold serveEntryRead
    split
    · exact .unchanged
    · split <;> exact .unchanged
  case linkStat clear =>
    unfold serveLinkStat
    simp only
    split
    · exact .counters
    · exact .unchanged

end Sys2Proof.Machine
end

