-- ==== Sys2Proof/Laws/Requests.lean ====
section
/-! SUPPORT. What a request, its answer and a held read can touch, whatever their kind. -/

namespace Sys2Proof.Machine

/-- A request at its block touches no cell, no key record, no replay count, no handler, no window and no input
(R144). -/
theorem State.serve_frame (s : State) (p : Port) (q : Request) :
    ∃ t : State, (s.serve p q).1 =
      { s with
        bodyTop := t.bodyTop, slotsUsed := t.slotsUsed, index := t.index, journal := t.journal,
        grant := t.grant, overlays := t.overlays, burnQueue := t.burnQueue, writer := t.writer,
        active := t.active, replay := t.replay, requester := t.requester, working := t.working,
        staging := t.staging, session := t.session, link := t.link } := by
  refine ⟨(s.serve p q).1, ?_⟩
  generalize ht : (s.serve p q).1 = u
  have he : ServeEffect s p u := ht ▸ serve_effect s p q
  clear ht
  cases he
  case opened =>
    obtain ⟨_, h⟩ := State.openSession_frame s p
    rw [h]
  case closed =>
    obtain ⟨_, h⟩ := State.endSession_frame s p
    rw [h]
  case committed =>
    unfold State.enqueue
    obtain ⟨_, h⟩ := State.arbitrate_frame _
    rw [h]; clear h
    rfl
  case revoking =>
    unfold State.enqueue
    obtain ⟨_, h⟩ := State.arbitrate_frame _
    rw [h]
  case rebuilding =>
    obtain ⟨_, h⟩ := State.arbitrate_frame _
    rw [h]
  all_goals rfl

theorem State.carryCurrent_frame (s : State) (p : Port) :
    ∃ t : State, s.carryCurrent p =
      { s with
        bodyTop := t.bodyTop, slotsUsed := t.slotsUsed, index := t.index, journal := t.journal,
        grant := t.grant, overlays := t.overlays, burnQueue := t.burnQueue, writer := t.writer,
        active := t.active, replay := t.replay, requester := t.requester, working := t.working,
        staging := t.staging, session := t.session, handler := t.handler, link := t.link } := by
  refine ⟨s.carryCurrent p, ?_⟩
  unfold State.carryCurrent State.setService
  split
  · rfl
  · split
    · rfl
    · simp only
      obtain ⟨_, h⟩ := State.serve_frame s p _
      rw [h]; clear h
      rfl

theorem State.submit_frame (s : State) (p : Port) (r : Record) :
    ∃ t : State, s.submit p r =
      { s with
        overlays := t.overlays, burnQueue := t.burnQueue, active := t.active, requester := t.requester,
        staging := t.staging, session := t.session, handler := t.handler, window := t.window,
        link := t.link } := by
  refine ⟨s.submit p r, ?_⟩
  unfold State.submit
  split
  · obtain ⟨_, h⟩ := State.submitToWindow_frame s _ r
    rw [h]
  · obtain ⟨_, h⟩ := State.receiveWhole_frame s .req r.tag r.kind r.args
    rw [h]

theorem State.submitOnce_frame (s : State) (p : Port) (r : Record) :
    ∃ t : State, s.submitOnce p r =
      { s with
        overlays := t.overlays, burnQueue := t.burnQueue, active := t.active, requester := t.requester,
        staging := t.staging, session := t.session, handler := t.handler, window := t.window,
        link := t.link } := by
  refine ⟨s.submitOnce p r, ?_⟩
  unfold State.submitOnce
  split
  · rfl
  · obtain ⟨_, h⟩ := State.submit_frame s p r
    rw [h]

theorem State.carryOnce_frame (s : State) (p : Port) (r : Record) :
    ∃ t : State, s.carryOnce p r =
      { s with
        bodyTop := t.bodyTop, slotsUsed := t.slotsUsed, index := t.index, journal := t.journal,
        grant := t.grant, overlays := t.overlays, burnQueue := t.burnQueue, writer := t.writer,
        active := t.active, replay := t.replay, requester := t.requester, working := t.working,
        staging := t.staging, session := t.session, handler := t.handler, link := t.link } := by
  refine ⟨s.carryOnce p r, ?_⟩
  unfold State.carryOnce
  split
  · obtain ⟨_, h⟩ := State.carryCurrent_frame s p
    rw [h]
  · rfl

/-- A request touches no cell, no key record, no replay count and no input, whatever its kind (R142, R144). -/
theorem State.request_frame (s : State) (p : Port) (r : Record) :
    ∃ t : State, s.request p r =
      { s with
        bodyTop := t.bodyTop, slotsUsed := t.slotsUsed, index := t.index, journal := t.journal,
        grant := t.grant, overlays := t.overlays, burnQueue := t.burnQueue, writer := t.writer,
        active := t.active, replay := t.replay, requester := t.requester, working := t.working,
        staging := t.staging, session := t.session, handler := t.handler, window := t.window,
        link := t.link } := by
  refine ⟨s.request p r, ?_⟩
  unfold State.request
  obtain ⟨_, h⟩ := State.carryOnce_frame (s.submitOnce p r) p r
  rw [h]; clear h
  obtain ⟨_, h⟩ := State.submitOnce_frame s p r
  rw [h]

theorem State.answerReady_frame (s : State) (p : Port) :
    ∃ t : State, s.answerReady p =
      { s with
        bodyTop := t.bodyTop, slotsUsed := t.slotsUsed, index := t.index, journal := t.journal,
        grant := t.grant, overlays := t.overlays, burnQueue := t.burnQueue, writer := t.writer,
        active := t.active, replay := t.replay, requester := t.requester, working := t.working,
        staging := t.staging, session := t.session, handler := t.handler, window := t.window,
        link := t.link } := by
  refine ⟨s.answerReady p, ?_⟩
  unfold State.answerReady
  split
  · rfl
  · by_cases hw : (s.handler.get p).service = .waiting
    · simp only [hw, if_true]
      split
      · obtain ⟨_, h⟩ := State.handOver_frame (s.carryCurrent p) p _
        rw [h]; clear h
        obtain ⟨_, h⟩ := State.carryCurrent_frame s p
        rw [h]
      · obtain ⟨_, h⟩ := State.carryCurrent_frame s p
        rw [h]
    · simp only [if_neg hw]
      split
      · obtain ⟨_, h⟩ := State.handOver_frame s p _
        rw [h]
      · rfl

theorem State.serveHeldRead_frame (s : State) (p : Port) :
    ∃ t : State, s.serveHeldRead p =
      { s with handler := t.handler, window := t.window, link := t.link } := by
  refine ⟨s.serveHeldRead p, ?_⟩
  unfold State.serveHeldRead
  simp only
  split
  · split
    · rfl
    · split
      · obtain ⟨_, h⟩ := State.handOver_frame s p _
        rw [h]
      · rfl
  · rfl

/-! ### From the command to the owning block -/

/-- The code of a kind names that kind (Table 8-1). -/
theorem requestKind?_code (kind : RequestKind) : requestKind? kind.code = some kind := by
  cases kind <;> decide

/-- The request of a record of a known kind is what its argument bytes read as. -/
theorem RequestKind.record_request? (kind : RequestKind) (tag : Byte) (args : Bytes)
    (h : args.length ≤ Config.maxArgs) : (kind.record tag args).request? = readArgs kind args := by
  simp [Record.request?, RequestKind.record, Record.make, requestKind?_code, h]

/-- A request command whose record reaches its block: the block's part, then its reply becomes the answer (R144). -/
theorem execRequest_takes {s d : State} {p : Port} {r : Record} {q : Request} (h : s.takes p r d)
    (hq : r.request? = some q) :
    execRequest p r s =
      .next ((((d.serve p q).1).setService p ((d.serve p q).2.service r.tag)).settle) := by
  obtain ⟨h1, rfl, h3⟩ := h
  have hc : ((s.submitOnce p r).handler.get p).current = some r := by
    simp only [State.awaits, Bool.and_eq_true, decide_eq_true_eq] at h3
    exact h3.1.2
  simp only [execRequest, State.running, h1, State.request, State.carryOnce, h3, if_true,
    Bool.false_eq_true, if_false, State.carryCurrent, hc, hq]

end Sys2Proof.Machine
end

