-- ==== Sys2Proof/Laws/Step.lean ====
section
/-! SUPPORT. Everything a command can do, said once: the state it leaves is one of these, and each names the shared
operation it goes through. -/

namespace Sys2Proof.Machine

/-- What a command that answers a next state leaves of `s`. -/
inductive Effect (s : State) : State → Prop where
  | unchanged : Effect s s
  | settled : Effect s s.settle
  | request (p : Port) (r : Record) : s.resetAsserted = false → Effect s (s.request p r).settle
  | answerReady (p : Port) : s.resetAsserted = false → Effect s (s.answerReady p).settle
  | heldRead (p : Port) : s.resetAsserted = false → Effect s (s.serveHeldRead p).settle
  | windowWrite (w : WindowPort) (offset data : Byte) : s.resetAsserted = false →
      Effect s (s.windowWrite w offset data).settle
  | windowPointer (w : WindowPort) (byte : Byte) : s.resetAsserted = false →
      Effect s (s.setWindow w ((s.window.get w).setPointer byte)).settle
  | windowRead (w : WindowPort) : s.resetAsserted = false →
      Effect s (s.setWindow w (s.window.get w).clockOut).settle
  | frame (type : FrameType) (tag code : Byte) (payload : Bytes) : s.resetAsserted = false →
      Effect s (s.receiveWhole type tag code payload).settle
  | bytes (bytes : Bytes) (ending : FrameEnd) : s.resetAsserted = false →
      Effect s (s.receiveBytes bytes ending).settle
  | turnaround : s.resetAsserted = false → Effect s s.completeTurnaround.settle
  | endSend : s.resetAsserted = false → Effect s (s.setLink s.link.endSend).settle
  | timer : s.resetAsserted = false → Effect s s.expireTimer.settle
  | heldLow : s.resetAsserted = false → Effect s s.holdLow.settle
  | released : s.resetAsserted = false → Effect s s.releaseLine.settle
  | startMark : s.resetAsserted = false → Effect s s.takeStartMark.settle
  | low (ns : Nat) : s.resetAsserted = false → Effect s (s.takeLow ns).settle
  | deviceReset (cut : Byte) : Effect s (s.cutPulse cut).assertReset
  | resetRelease (strap0 strap1 : StrapPin) : s.resetAsserted = true →
      Effect s (s.releaseReset strap0 strap1)
  | burnEn (level : Bool) : Effect s { s with burnEn := level }
  | cellGain (offset : Nat) (bits : Byte) : offset < Config.arrayBytes →
      Effect s { s with array := s.array.setBits offset bits }
  | pulse (taken : Byte) : s.resetAsserted = false →
      Effect s (s.burnPulse taken s.pauses).arbitrate.settle
  | verify (a : ActiveJob) : s.resetAsserted = false → s.writer = .verify →
      s.active = some a → Effect s (s.stepVerify a s.pauses).arbitrate.settle
  | startup : s.resetAsserted = false → s.replay = .startup → Effect s s.installStartup.endRun.settle
  | rebuild : s.resetAsserted = false → s.replay = .rebuilding →
      Effect s s.installRebuild.endRun.settle
  | tick : s.resetAsserted = false → Effect s s.tick.settle
  | expiry : s.resetAsserted = false → Effect s s.expireOverlays.settle

theorem Effect.of_running {s t : State} {f : State → State}
    (hf : s.resetAsserted = false → Effect s (f s))
    (h : (Host.Outcome.next (s.running f) : Host.Outcome State Fault Refusal) = .next t) :
    Effect s t := by
  injection h with h
  subst h
  unfold State.running
  split
  · exact .unchanged
  · exact hf (by simpa using ‹¬s.resetAsserted = true›)

/-- What a command can do. -/
theorem exec_effect {c : Instr} {s t : State} (h : exec c s = .next t) : Effect s t := by
  cases c
  case verify =>
    refine Effect.of_running (h := h) fun hr => ?_
    split
    · exact .verify _ hr ‹_› ‹_›
    · exact .settled
  case startupReplayDone =>
    refine Effect.of_running (h := h) fun hr => ?_
    split
    · exact .startup hr ‹_›
    · exact .settled
  case rebuildInstall =>
    refine Effect.of_running (h := h) fun hr => ?_
    split
    · exact .rebuild hr ‹_›
    · exact .settled
  case frameSendComplete =>
    refine Effect.of_running (h := h) fun hr => ?_
    split
    · exact .endSend hr
    · exact .settled
  case deviceReset =>
    injection h with h
    exact h ▸ .deviceReset _
  case resetRelease =>
    injection h with h
    subst h
    split
    · exact .resetRelease _ _ ‹_›
    · exact .unchanged
  case burnEnChange =>
    injection h with h
    exact h ▸ .burnEn _
  case cellBitGain =>
    simp only [exec, execCellBitGain] at h
    split at h
    · injection h with h
      exact h ▸ .cellGain _ _ ‹_›
    · simp at h
  case heldJournalReadServed => exact Effect.of_running (h := h) fun hr => .heldRead _ hr
  case answerReady => exact Effect.of_running (h := h) fun hr => .answerReady _ hr
  case windowPointerSet => exact Effect.of_running (h := h) fun hr => .windowPointer _ _ hr
  case windowByteRead => exact Effect.of_running (h := h) fun hr => .windowRead _ hr
  case req => exact Effect.of_running (h := h) fun hr => .frame _ _ _ _ hr
  case ack => exact Effect.of_running (h := h) fun hr => .frame _ _ _ _ hr
  case resetFrame => exact Effect.of_running (h := h) fun hr => .frame _ _ _ _ hr
  case frameDiscarded => exact Effect.of_running (h := h) fun hr => .bytes _ _ hr
  case turnaroundComplete => exact Effect.of_running (h := h) fun hr => .turnaround hr
  case ackTimerExpiry => exact Effect.of_running (h := h) fun hr => .timer hr
  case linkLoss => exact Effect.of_running (h := h) fun hr => .heldLow hr
  case linkLineReleased => exact Effect.of_running (h := h) fun hr => .released hr
  case startMark => exact Effect.of_running (h := h) fun hr => .startMark hr
  case preambleOrNoise => exact Effect.of_running (h := h) fun hr => .low _ hr
  case burnPulse => exact Effect.of_running (h := h) fun hr => .pulse _ hr
  case timebaseTick => exact Effect.of_running (h := h) fun hr => .tick hr
  case overlayExpired => exact Effect.of_running (h := h) fun hr => .expiry hr
  case go => exact Effect.of_running (h := h) fun hr => .windowWrite _ _ _ hr
  case take => exact Effect.of_running (h := h) fun hr => .windowWrite _ _ _ hr
  case portReset => exact Effect.of_running (h := h) fun hr => .windowWrite _ _ _ hr
  case unknownControlCode => exact Effect.of_running (h := h) fun hr => .windowWrite _ _ _ hr
  case requestAreaWrite => exact Effect.of_running (h := h) fun hr => .windowWrite _ _ _ hr
  case attnEnableWrite => exact Effect.of_running (h := h) fun hr => .windowWrite _ _ _ hr
  case windowWriteIgnored => exact Effect.of_running (h := h) fun hr => .windowWrite _ _ _ hr
  all_goals exact Effect.of_running (h := h) fun hr => .request _ _ hr

/-- What a step can do: nothing on an empty queue, and otherwise what the command at its front does to the state
with the queue's rest. -/
theorem step_effect {s t : State} (h : step s = .next t) :
    t = s ∨ ∃ rest, Effect { s with pending := rest } t := by
  unfold step at h
  split at h
  · injection h with h
    exact .inl h.symm
  · exact .inr ⟨_, exec_effect h⟩

/-! ### What every command keeps -/

/-- A law that no transport, cell or input bears on, and that each shared operation keeps. -/
structure Kept (P : State → Prop) : Prop where
  transport : ∀ s handler window link, P s →
    P { s with handler := handler, window := window, link := link }
  cell : ∀ s array, P s → P { s with array := array }
  burnEn : ∀ s level, P s → P { s with burnEn := level }
  queue : ∀ s rest, P s → P { s with pending := rest }
  serve : ∀ s p q, P s → P (s.serve p q).1
  endSession : ∀ s p, P s → P (s.endSession p)
  acknowledge : ∀ s, P s → P (s.setSession .port2 (s.session.get .port2).acknowledge)
  markSent : ∀ s, P s → P (s.setSession .port2 (s.session.get .port2).markSent)
  count : ∀ s, P s → P s.countTick
  expiry : ∀ s, P s → P s.expireOverlays
  pulse : ∀ s taken pause, P s → P (s.burnPulse taken pause).arbitrate
  verify : ∀ s a pause, s.writer = .verify → s.active = some a → P s →
    P (s.stepVerify a pause).arbitrate
  startup : ∀ s, s.replay = .startup → P s → P s.installStartup.endRun
  rebuild : ∀ s, s.replay = .rebuilding → P s → P s.installRebuild.endRun
  reset : ∀ s, P s → P s.assertReset
  release : ∀ s strap0 strap1, s.resetAsserted = true → P s → P (s.releaseReset strap0 strap1)

section
variable {P : State → Prop} (k : Kept P)
include k

theorem Kept.link {s : State} (h : P s) (l : Link) : P { s with link := l } :=
  k.transport s s.handler s.window l h

theorem Kept.handlerOnly {s : State} (h : P s) (x : PerPort Handler) : P { s with handler := x } :=
  k.transport s x s.window s.link h

theorem Kept.windowOnly {s : State} (h : P s) (x : PerWindow Window) : P { s with window := x } :=
  k.transport s s.handler x s.link h

theorem Kept.settle {s : State} (h : P s) : P s.settle := by
  obtain ⟨t, e⟩ := State.settle_frame s
  rw [e]
  exact k.transport s s.handler t.window t.link h

theorem Kept.carryCurrent {s : State} (p : Port) (h : P s) : P (s.carryCurrent p) := by
  unfold State.carryCurrent
  split
  · exact h
  · split
    · exact h
    · exact k.handlerOnly (k.serve s p _ h) _

theorem Kept.controlCode {s : State} (w : WindowPort) (code : Byte) (h : P s) :
    P (s.controlCode w code) := by
  unfold State.controlCode
  split
  · obtain ⟨t, e⟩ := State.windowGo_frame s w
    rw [e]
    exact k.transport s t.handler t.window s.link h
  · split
    · exact k.windowOnly h _
    · split
      · exact k.handlerOnly (k.endSession _ _ (k.windowOnly h _)) _
      · exact k.windowOnly h _

theorem Kept.landByte {s : State} (w : WindowPort) (offset data : Byte) (h : P s) :
    P (s.landByte w offset data) := by
  unfold State.landByte
  refine k.windowOnly ?_ _
  split
  · exact k.controlCode w data h
  · split
    · exact k.windowOnly h _
    · split
      · exact k.windowOnly h _
      · exact h

theorem Kept.windowWrite {s : State} (w : WindowPort) (offset data : Byte) (h : P s) :
    P (s.windowWrite w offset data) := by
  unfold State.windowWrite
  simp only
  split
  · exact k.windowOnly h _
  · exact k.landByte w offset data (k.windowOnly h _)

theorem Kept.landBytes (w : WindowPort) (offset : Byte) (bytes : Bytes) {s : State} (h : P s) :
    P (s.landBytes w offset bytes) := by
  induction bytes generalizing s offset with
  | nil => exact h
  | cons b rest ih => exact ih _ (k.landByte w offset b h)

theorem Kept.takeFrame {s : State} (type : FrameType) (tag code : Byte) (payload : Bytes) (h : P s) :
    P (s.takeFrame type tag code payload) := by
  unfold State.takeFrame
  split
  · obtain ⟨t, e⟩ := State.takeReq_frame s tag code payload
    rw [e]
    exact k.transport s t.handler s.window t.link h
  · unfold State.takeAck
    simp only
    split
    · exact h
    · split
      · exact k.link (k.acknowledge s h) _
      · exact h
  · exact k.link (k.handlerOnly (k.endSession s .port2 h) _) _
  · exact h

theorem Kept.receiveWhole {s : State} (type : FrameType) (tag code : Byte) (payload : Bytes) (h : P s) :
    P (s.receiveWhole type tag code payload) := by
  unfold State.receiveWhole
  split
  · exact h
  · obtain ⟨_, e⟩ := State.withinFrame?_frame s _ ‹_›
    subst e
    simp only
    split
    · exact k.link (k.takeFrame _ _ _ _ (k.link h _)) _
    · exact k.link h _

theorem Kept.receiveBytes {s : State} (bytes : Bytes) (ending : FrameEnd) (h : P s) :
    P (s.receiveBytes bytes ending) := by
  unfold State.receiveBytes
  split
  · exact h
  · obtain ⟨_, e⟩ := State.withinFrame?_frame s _ ‹_›
    subst e
    simp only
    split
    · exact k.link (k.takeFrame _ _ _ _ (k.link h _)) _
    · exact k.link h _

theorem Kept.request {s : State} (p : Port) (r : Record) (h : P s) : P (s.request p r) := by
  have hs : P (s.submitOnce p r) := by
    unfold State.submitOnce State.submit
    split
    · exact h
    · split
      · exact k.landByte _ _ _ (k.landBytes _ _ _ (k.windowOnly h _))
      · exact k.receiveWhole _ _ _ _ h
  unfold State.request State.carryOnce
  split
  · exact k.carryCurrent p hs
  · exact hs

theorem Kept.answerReady {s : State} (p : Port) (h : P s) : P (s.answerReady p) := by
  have hand : ∀ u r, P u → P (State.handOver u p r) := fun u r hu => by
    obtain ⟨t, e⟩ := State.handOver_frame u p r
    rw [e]
    exact k.transport u t.handler t.window t.link hu
  unfold State.answerReady
  split
  · exact h
  · by_cases hw : (s.handler.get p).service = .waiting
    · simp only [hw, if_true]
      split
      · exact hand _ _ (k.carryCurrent p h)
      · exact k.carryCurrent p h
    · simp only [if_neg hw]
      split
      · exact hand _ _ h
      · exact h

theorem Kept.completeTurnaround {s : State} (h : P s) : P s.completeTurnaround := by
  unfold State.completeTurnaround
  split
  · exact h
  · split
    · exact k.link h _
    · exact k.link h _
    · split
      · unfold State.beginNote
        simp only
        split
        · exact k.link h _
        · exact k.link (k.markSent s h) _
      · exact k.link h _

theorem Kept.loseLink {s : State} (next : LinkState) (h : P s) : P (s.loseLink next) :=
  k.endSession _ _ (k.handlerOnly (k.link h _) _)

theorem Kept.expireTimer {s : State} (h : P s) : P s.expireTimer := by
  unfold State.expireTimer
  split
  · split
    · exact k.link h _
    · exact k.loseLink _ h
  · exact h

theorem Kept.tick {s : State} (h : P s) : P s.tick := by
  have due : P (if s.overlays.any (·.due) then s.expireOverlays.settle else s) := by
    split
    · exact k.settle (k.expiry s h)
    · exact h
  refine k.count _ ?_
  unfold State.takeDue
  generalize (if s.overlays.any (·.due) then s.expireOverlays.settle else s) = u at due ⊢
  dsimp only
  split
  · exact k.settle (k.expireTimer due)
  · exact due

theorem Kept.holdLow {s : State} (h : P s) : P s.holdLow := by
  unfold State.holdLow
  split
  · exact h
  · exact h
  · exact k.loseLink _ h

theorem Kept.takeStartMark {s : State} (h : P s) : P s.takeStartMark := by
  obtain ⟨t, e⟩ := State.takeStartMark_frame s
  rw [e]
  exact k.link h t.link

/-- The law holds after whatever a command does. -/
theorem Kept.effect {s t : State} (he : Effect s t) (h : P s) : P t := by
  cases he with
  | unchanged => exact h
  | settled => exact k.settle h
  | request p r => exact k.settle (k.request p r h)
  | answerReady p => exact k.settle (k.answerReady p h)
  | heldRead p =>
    refine k.settle ?_
    obtain ⟨t, e⟩ := State.serveHeldRead_frame s p
    rw [e]
    exact k.transport s t.handler t.window t.link h
  | windowWrite w offset data => exact k.settle (k.windowWrite w offset data h)
  | windowPointer w byte => exact k.settle (k.windowOnly h _)
  | windowRead w => exact k.settle (k.windowOnly h _)
  | frame type tag code payload => exact k.settle (k.receiveWhole type tag code payload h)
  | bytes bytes ending => exact k.settle (k.receiveBytes bytes ending h)
  | turnaround => exact k.settle (k.completeTurnaround h)
  | endSend => exact k.settle (k.link h _)
  | timer => exact k.settle (k.expireTimer h)
  | heldLow => exact k.settle (k.holdLow h)
  | released =>
    refine k.settle ?_
    unfold State.releaseLine
    split
    · exact k.link h _
    · exact h
  | startMark => exact k.settle (k.takeStartMark h)
  | low ns =>
    refine k.settle ?_
    unfold State.takeLow
    split
    · exact k.takeStartMark h
    · exact k.holdLow h
    · exact h
    · split
      · exact k.link h _
      · exact h
    · split
      · exact k.link h _
      · exact h
    · split
      · unfold State.takeEndMark
        split
        · exact k.receiveBytes _ _ h
        · exact k.link (k.link h _) _
      · exact h
    · split
      · exact k.link (k.link h _) _
      · exact h
  | deviceReset cut =>
    refine k.reset _ ?_
    unfold State.cutPulse
    split
    · obtain ⟨t, e⟩ := State.pulseCell_frame s _ (cut &&& _)
      rw [e]
      exact k.cell s t.array h
    · exact h
  | resetRelease strap0 strap1 hr => exact k.release s strap0 strap1 hr h
  | burnEn level => exact k.burnEn s level h
  | cellGain offset bits => exact k.cell s _ h
  | pulse taken => exact k.settle (k.pulse s taken s.pauses h)
  | verify a _ hv ha => exact k.settle (k.verify s a s.pauses hv ha h)
  | startup _ hr => exact k.settle (k.startup s hr h)
  | rebuild _ hr => exact k.settle (k.rebuild s hr h)
  | tick => exact k.settle (k.tick h)
  | expiry => exact k.settle (k.expiry s h)

/-- The law holds after every step. -/
theorem Kept.step {s t : State} (hs : Machine.step s = .next t) (h : P s) : P t := by
  rcases step_effect hs with rfl | ⟨rest, he⟩
  · exact h
  · exact k.effect he (k.queue s rest h)

end

end Sys2Proof.Machine
end

