-- ==== Sys2Proof/Laws/Writer.lean ====
section
/-! SUPPORT. Laws through a job of the Journal Writer: what a law must keep at each primitive of the writer, so that
it holds after a pulse, the VERIFY readback and every grant. -/

namespace Sys2Proof.Machine

/-- A law `P` of the part, with what holds of it (`W`) while the writer holds a job: kept by the figures the
writer sets, by the apply, and by each end of a job. -/
structure WriterKept (P : State → Prop) (W : State → Job → Prop) : Prop where
  figures : ∀ s j array bodyTop slotsUsed index journal grant writer active, W s j →
    W { s with
        array := array, bodyTop := bodyTop, slotsUsed := slotsUsed, index := index, journal := journal
        grant := grant, writer := writer, active := active } j
  held : ∀ s a, P s → s.active = some a → W s a.job
  take : ∀ s j rest, P s → s.burnQueue = j :: rest → W { s with burnQueue := rest } j
  burning : ∀ s j, W s j →
    W (s.setStaging j.port { s.staging.get j.port with state := .burning }) j
  hold : ∀ s j step a, W s j → a.job = j → step ≠ .idle →
    P { s with writer := step, active := some a }
  apply : ∀ s j seq actions, W s j → W (s.applyActions seq actions) j
  reports : ∀ s j reports, W s j → W (s.sendReports reports) j
  endCommit : ∀ s j result seq failIndex, W s j → P (s.endCommit j result seq failIndex)
  endRevoke : ∀ s j result target, W s j → P (s.endRevoke j result target)
  free : ∀ s, P s → s.burnQueue = [] → P { s with grant := .free }
  rebuild : ∀ s, P s → P s.grantRebuild
  same : ∀ s array, P s → P { s with array := array }

section
variable {P : State → Prop} {W : State → Job → Prop} (k : WriterKept P W)
include k

theorem WriterKept.setEntryState {s : State} {j : Job} (h : W s j) (seq : Nat) (e : EntryState) :
    W (s.setEntryState seq e) j :=
  k.figures s j s.array s.bodyTop s.slotsUsed _ s.journal s.grant s.writer s.active h

theorem WriterKept.markApplied {s : State} {j : Job} (h : W s j) (seq : Nat) :
    W (s.markApplied seq) j :=
  k.figures s j s.array s.bodyTop s.slotsUsed _ s.journal s.grant s.writer s.active h

theorem WriterKept.faulted {s : State} {j : Job} (h : W s j) : W { s with journal := .faulted } j :=
  k.figures s j s.array s.bodyTop s.slotsUsed s.index _ s.grant s.writer s.active h

theorem WriterKept.beginSlot {s : State} {j : Job} (h : W s j) (a : ActiveJob) : W (s.beginSlot a) j :=
  k.figures s j s.array s.bodyTop _ _ s.journal s.grant s.writer s.active h

theorem WriterKept.endBody {s : State} {j : Job} (h : W s j) (a : ActiveJob) : W (s.endBody a) j :=
  k.figures s j s.array _ s.slotsUsed s.index s.journal s.grant s.writer s.active h

theorem WriterKept.pulseCell {s : State} {j : Job} (h : W s j) (offset : Nat) (taken : Byte) :
    W (s.pulseCell offset taken) j := by
  obtain ⟨t, e⟩ := State.pulseCell_frame s offset taken
  rw [e]
  exact k.figures s j t.array s.bodyTop s.slotsUsed s.index s.journal s.grant s.writer s.active h

theorem WriterKept.stepVoid {s : State} {a : ActiveJob} (h : W s a.job) (r : BurnRun) :
    P (s.stepVoid a r) := by
  unfold State.stepVoid
  split
  · exact k.hold s a.job .voiding _ h rfl (by decide)
  · exact k.endCommit _ _ _ _ _ (k.setEntryState h _ _)
  · exact k.endCommit _ _ _ _ _ (k.faulted h)

theorem WriterKept.voidSlot {s : State} {a : ActiveJob} (h : W s a.job) : P (s.voidSlot a) :=
  k.stepVoid h _

theorem WriterKept.voidFromBody {s : State} {a : ActiveJob} (h : W s a.job) : P (s.voidFromBody a) :=
  k.stepVoid (k.beginSlot h a) _

theorem WriterKept.applyPatch {s : State} {a : ActiveJob} (h : W s a.job) (pause : Bool) :
    P (s.applyPatch a pause) := by
  unfold State.applyPatch
  simp only
  split
  · exact k.hold _ a.job .apply _ (k.reports _ _ _ (k.markApplied (k.apply _ _ _ _ h) _)) rfl (by decide)
  · exact k.endCommit _ _ _ _ _ (k.reports _ _ _ (k.markApplied (k.apply _ _ _ _ h) _))

theorem WriterKept.stepSeal {s : State} {a : ActiveJob} (h : W s a.job) (r : BurnRun) (pause : Bool) :
    P (s.stepSeal a r pause) := by
  have done := k.setEntryState h a.seq .sealed
  unfold State.stepSeal
  split
  · exact k.hold s a.job .seal _ h rfl (by decide)
  · simp only
    split
    · exact k.hold _ a.job .apply _ done rfl (by decide)
    · exact k.applyPatch done false
  · exact k.voidSlot h

theorem WriterKept.stepVerify {s : State} {a : ActiveJob} (h : W s a.job) (pause : Bool) :
    P (s.stepVerify a pause) := by
  unfold State.stepVerify
  split
  · exact k.stepSeal h _ pause
  · exact k.voidSlot h

theorem WriterKept.stepEntry {s : State} {a : ActiveJob} (h : W s a.job) (r : BurnRun) :
    P (s.stepEntry a r) := by
  unfold State.stepEntry
  split
  · exact k.hold s a.job .entry _ h rfl (by decide)
  · exact k.hold s a.job .verify _ h rfl (by decide)
  · exact k.voidSlot h

theorem WriterKept.leaveBody {s : State} {a : ActiveJob} (h : W s a.job) (whole : Bool) :
    P (s.leaveBody a whole) := by
  unfold State.leaveBody
  split
  · exact k.stepEntry (k.beginSlot h a) _
  · exact k.voidFromBody h

theorem WriterKept.finishBody {s : State} {a : ActiveJob} (h : W s a.job) (whole pause : Bool) :
    P (s.finishBody a whole pause) := by
  unfold State.finishBody
  simp only
  split
  · exact k.hold _ a.job .body _ (k.endBody h a) rfl (by decide)
  · exact k.leaveBody (k.endBody h a) whole

theorem WriterKept.stepBody {s : State} {a : ActiveJob} (h : W s a.job) (r : BurnRun) (pause : Bool) :
    P (s.stepBody a r pause) := by
  unfold State.stepBody
  split
  · exact k.hold s a.job .body _ h rfl (by decide)
  · exact k.finishBody h true pause
  · exact k.finishBody h false pause

theorem WriterKept.stepRevoke {s : State} {a : ActiveJob} (h : W s a.job) (r : BurnRun) :
    P (s.stepRevoke a r) := by
  unfold State.stepRevoke
  split
  · exact k.hold s a.job .revoking _ h rfl (by decide)
  · split
    · exact k.endRevoke _ _ _ _ (k.faulted h)
    · exact k.endRevoke _ _ _ _ (k.setEntryState h _ _)

theorem WriterKept.testJob {s : State} {j : Job} (h : W s j) : P (s.testJob j) := by
  unfold State.testJob
  split
  · unfold State.testCommit
    simp only
    split
    · exact k.endCommit _ _ _ _ _ (k.faulted h)
    · exact k.endCommit _ _ _ _ _ h
    · exact k.stepBody (a := s.commitPlan j _) h _ s.pauses
  · unfold State.testRevoke
    split
    · exact k.endRevoke _ _ _ _ h
    · exact k.stepRevoke (a := { ActiveJob.granted j with slot := _, moment := .none }) h _

/-- At the grant of a job the law holds, and so does what holds of it while the writer serves the job. -/
theorem WriterKept.grantJob {s : State} {j : Job} (h : W s j) : P (s.grantJob j) ∧ W (s.grantJob j) j := by
  unfold State.grantJob
  split
  · have hb := k.burning s j h
    exact ⟨k.hold _ j .precheck _ hb rfl (by decide),
      k.figures _ j s.array s.bodyTop s.slotsUsed s.index s.journal s.grant _ _ hb⟩
  · exact ⟨k.hold _ j .revoking _ h rfl (by decide),
      k.figures _ j s.array s.bodyTop s.slotsUsed s.index s.journal s.grant _ _ h⟩

theorem WriterKept.startJob {s : State} {j : Job} (h : W s j) : P (s.startJob j) := by
  unfold State.startJob
  simp only
  split
  · exact (k.grantJob h).1
  · exact k.testJob (k.grantJob h).2

theorem WriterKept.pulse {s : State} {a : ActiveJob} (h : P s) (hw : W s a.job) (taken : Byte)
    (pause : Bool) : P (s.pulse a taken pause) := by
  unfold State.pulse
  split
  · exact h
  next offset _ _ _ =>
    have hp := k.pulseCell hw offset taken
    simp only
    split
    · exact k.stepBody hp _ pause
    · exact k.stepEntry hp _
    · exact k.stepSeal hp _ pause
    · exact k.stepVoid hp _
    · exact k.stepRevoke hp _
    · exact h

/-- The law holds after a pulse, and after the writer goes on from a moment it was held at. -/
theorem WriterKept.burnPulse {s : State} (h : P s) (taken : Byte) (pause : Bool) :
    P (s.burnPulse taken pause) := by
  unfold State.burnPulse
  split
  · exact h
  next a ha =>
    have hw := k.held s a h ha
    split
    · exact k.testJob hw
    · exact k.leaveBody hw _
    · exact k.applyPatch hw pause
    · exact k.endCommit _ _ _ _ _ hw
    · exact k.pulse h hw taken pause

theorem WriterKept.serveJobs (jobs : List Job) {s : State} (h : P s) (hq : s.burnQueue = jobs) :
    P (serveJobs jobs s) := by
  induction jobs generalizing s with
  | nil => exact k.free s h hq
  | cons j rest ih =>
    unfold Machine.serveJobs
    simp only
    have hw : W { s with burnQueue := rest, grant := .writer } j :=
      k.figures { s with burnQueue := rest } j s.array s.bodyTop s.slotsUsed s.index s.journal .writer
        s.writer s.active (k.take s j rest h hq)
    have hp := k.startJob hw
    split
    · refine ih hp ?_
      obtain ⟨_, e⟩ := State.startJob_frame { s with burnQueue := rest, grant := .writer } j
      rw [e]
    · exact hp

theorem WriterKept.resolveGrant {s : State} (h : P s) : P s.resolveGrant := by
  unfold State.resolveGrant
  split
  · exact k.rebuild s h
  · exact k.serveJobs _ h rfl

/-- The law holds after the arbiter's grants. -/
theorem WriterKept.arbitrate {s : State} (h : P s) : P s.arbitrate := by
  unfold State.arbitrate
  split
  · exact k.resolveGrant h
  · split
    · exact k.resolveGrant h
    · exact h
  · exact h

end

end Sys2Proof.Machine
end

