-- ==== Sys2Proof/Tests/Slice0.lean ====
section
/-! SUPPORT. Tests of the model against the manual's worked values and rules, the smoke test of WellFormed, and for
every statement with hypotheses a witness: a concrete state and operands that meet them. -/

namespace Sys2Proof.Tests

open Sys2Proof.Machine

set_option Elab.async false

/-! ### Small states -/

/-- What a command leaves; the state itself where it stops. -/
def after (c : Instr) (s : State) : State :=
  match exec c s with
  | .next t => t
  | _ => s

/-- The status and data of a port's answer. -/
def answer (p : Port) (s : State) : Option (Status × Bytes) :=
  match (s.handler.get p).service with
  | .answered r => some (r.status, r.data)
  | _ => none

/-- The answer to one request command. -/
def reply (p : Port) (c : Instr) (s : State) : Option (Status × Bytes) := answer p (after c s)

/-- The part with the start-up replay of a blank array installed and BURN_EN high (see test_startup). -/
def booted : State :=
  { State.reset with
    journal := .opened, grant := .free, replay := .idle, working := none, portEnable := some 7, burnEn := true
    window := ⟨{ Window.reset .vdd with state := .idle }, { Window.reset .vdd with state := .idle }⟩
    link := { Link.reset with ackWindow := some 20 } }

/-- Port 0 and port 2 with an open session of generation 1, port 0 watching every key. -/
def opened : State :=
  { booted with
    session :=
      ⟨{ Session.reset with isOpen := true, generation := 1, watches := [(0, 0xFFF)] }, Session.reset,
       { Session.reset with isOpen := true, generation := 1 }⟩ }

/-- Key 020h staged to 1234h on port 0. -/
def twelve : Action := ⟨0x020, .assign [0x12, 0x34], false, .none⟩

def staged : State := opened.setStaging .port0 ⟨.building, [twelve]⟩

/-- The commit of that list taken by the writer, its body of seven bytes to burn. -/
def writing : State := after (.commit .port0 7) staged

/-- The active job of `writing`, at a step with these bytes to burn, `pulses` taken on the first. -/
def jobAt (todo : List (Nat × Byte)) (pulses : Nat) : ActiveJob :=
  { job := ⟨.port0, .commit, 1, true⟩, slot := 0, bodyOffset := 0, bodyLength := 7, count := 1
    crc := crc32 (bodyBytes [twelve]), todo := todo, pulses := pulses, moment := .none }

/-- `writing` at another step; past BODY the slot is begun. -/
def writingAt (step : WriterState) (todo : List (Nat × Byte)) (pulses : Nat) : State :=
  { writing with
    writer := step, active := some (jobAt todo pulses)
    bodyTop := if step = .body then 0 else 7
    slotsUsed := if step = .body then 0 else 1
    index := if step = .body then [] else [⟨1, .torn, 0, 0, 7, 1, false⟩] }

/-- The seal of slot 0 under burn. -/
def sealing : State := writingAt .seal [(0x2FFE, 0xA5)] 0

/-- The same part, waiting at each moment between two effects of a job. -/
def pausing (s : State) : State := { s with pauses := true }

/-- The commit of the staged list granted, and no test of it made. -/
def granted : State := after (.commit .port0 7) (pausing staged)

/-- The part after the start-up replay of this array, with a session, a staged list and BURN_EN high. -/
def bootedOn (array : Memory) : State :=
  { after .startupReplayDone { State.reset with array := array } with
    session := opened.session, staging := staged.staging, burnEn := true }

/-- Entry 1 sealed by port 0. -/
def sealed : State :=
  { opened with slotsUsed := 1, bodyTop := 7, index := [⟨1, .sealed, 0, 0, 7, 1, true⟩] }

/-- The revoke field of entry 1 under burn. -/
def revokingAt (pulses : Nat) : State :=
  { sealed with
    grant := .writer, writer := .revoking
    active := some
      { job := ⟨.port0, .revoke 1, 1, true⟩, slot := 0, bodyOffset := 0, bodyLength := 0, count := 0, crc := 0
        todo := [(0x2FFF, 0xFF)], pulses := pulses, moment := .none } }

/-- An unbound overlay of port 0 on key 000h with three ticks left. -/
def overlay : OverlayRecord := ⟨0, [0x55], .port0, 1, false, some 3, false⟩

def overlaid : State := { opened with overlays := [overlay] }

/-- A REBUILD of port 0 under way. -/
def rebuilding : State :=
  { opened with
    grant := .replay, replay := .rebuilding, journal := .replaying
    requester := some ⟨.port0, 1, true⟩, working := some WorkingResult.defaults }

/-- RESET asserted. -/
def inReset : State := after (.deviceReset 0) booted

/-- A notice of a change of key 020h. -/
def changed : NoticeBody := .valueChanged 0x020 .effective .commit .port0 (some 1)

/-- Port 2 with one notice queued. -/
def noticed : State :=
  opened.setSession .port2 { opened.session.port2 with queue := [⟨1, changed⟩], tagCounter := 1 }

/-- Port 2's notice sent and the link in TURN. -/
def sent : State :=
  (noticed.setSession .port2 { noticed.session.port2 with headSent := true }).setLink
    { booted.link with state := .turn, sendCount := 1, timer := .running 0 }

/-- Port 2 with a stored response of tag 7. -/
def stored : State :=
  booted.setHandler .port2 { booted.handler.port2 with stored := some ⟨.ok, 7, []⟩, lastTag := 7 }

/-- The link sending an answer. -/
def sending : State := booted.setLink { booted.link with state := .tx, sending := some .response }

/-- The link within a frame, with these bits received. -/
def receiving (bits : List Bool) : State := booted.setLink { booted.link with state := .rx, rxBits := bits }

/-- Port 0 strapped for SPI. -/
def spiPort : State := booted.setWindow .window0 { booted.window.window0 with strap := .vss }

/-- A command byte sent on that port, CS rising after the coming bytes as listed. -/
def spiBegun (command : Byte) (rises : List Bool) : State :=
  after (.windowPointerSet .window0 command)
    (spiPort.setWindow .window0 { spiPort.window.window0 with csRises := rises })

/-- A handler with an answer ready to hand over. -/
def answering (p : Port) (abandoned : Bool) : State :=
  booted.setHandler p
    { Handler.reset with
      state := .executing, current := some (RequestKind.noticeRead.record 3 []), abandoned := abandoned
      service := .answered ⟨.empty, 3, []⟩ }

/-- The record a request row's command stands for, with sample arguments. -/
def sampleArgs : RequestKind → Bytes
  | .get => [0x00, 0x20]
  | .getDetail => [0x00, 0x20]
  | .catalogRead => [159]
  | .watch => [0x00, 0x00, 0x0F, 0xFF]
  | .unwatch => [0x00, 0x00, 0x0F, 0xFF]
  | .stageAssign => stageAssignArgs 0x020 [0x12, 0x34] .none
  | .stageRetire => stageRetireArgs 0x020 .untouched
  | .stagePin => [0x00, 0x20]
  | .stageDrop => [0x00, 0x20]
  | .stageList => [0]
  | .overlaySet => overlaySetArgs 0x000 [0x55] 3 false
  | .overlayClear => [0x00, 0x00]
  | .overlayList => [0]
  | .revoke => [0x00, 0x01]
  | .journalRead => [0x2F, 0xFF, 0x01]
  | .entryRead => [0x00, 0x01]
  | .linkStat => [0x01]
  | _ => []

/-- What holds of the three ports holds of every port. -/
theorem forall_port (P : Port → Prop) : (∀ p, P p) ↔ P .port0 ∧ P .port1 ∧ P .port2 :=
  ⟨fun h => ⟨h _, h _, h _⟩, fun h p => by
    cases p
    exacts [h.1, h.2.1, h.2.2]⟩

/-- The ports. -/
def ports : List Port := [.port0, .port1, .port2]

/-- An array into which these bytes are burned. -/
def burned (todo : List (Nat × Byte)) : Memory := todo.foldl (fun m x => m.setBits x.1 x.2) []

/-- A run whose first byte does not read its target stops at it. -/
theorem stops_first (m : Memory) (x : Nat × Byte) (after : List (Nat × Byte)) (h : m.read x.1 ≠ x.2) :
    m.stopsAt (x :: after) x after := ⟨[], rfl, fun _ hy => (by cases hy), h⟩

/-- A run whose first byte alone reads its target stops at its second. -/
theorem stops_second (m : Memory) (x y : Nat × Byte) (after : List (Nat × Byte)) (hx : m.read x.1 = x.2)
    (hy : m.read y.1 ≠ y.2) : m.stopsAt (x :: y :: after) y after :=
  ⟨[x], rfl, fun z hz => by
    rw [List.mem_singleton.1 hz]
    exact hx, hy⟩

/-- A byte with a stray bit does not read its target. -/
theorem stray_ne (m : Memory) (x : Nat × Byte) (h : m.read x.1 &&& ~~~x.2 ≠ 0) : m.read x.1 ≠ x.2 := fun e =>
  h (by simp [e])

/-- A byte short of its target at its fourth pulse fails. -/
theorem fails_fourth (m : Memory) (pulses : Nat) (x : Nat × Byte) (after : List (Nat × Byte))
    (h : m.read x.1 ≠ x.2) (hp : 4 ≤ pulses + 1) : m.pulseFails pulses (x :: after) :=
  ⟨x, after, stops_first m x after h, .inr ⟨rfl, hp⟩⟩

/-- A byte that takes a stray bit fails. -/
theorem fails_stray (m : Memory) (pulses : Nat) (x : Nat × Byte) (after : List (Nat × Byte))
    (h : m.read x.1 &&& ~~~x.2 ≠ 0) : m.pulseFails pulses (x :: after) :=
  ⟨x, after, stops_first m x after (stray_ne m x h), .inl h⟩

/-- A byte behind one that succeeds fails at once on a stray bit. -/
theorem fails_later (m : Memory) (pulses : Nat) (x y : Nat × Byte) (after : List (Nat × Byte))
    (hx : m.read x.1 = x.2) (hy : m.read y.1 &&& ~~~y.2 ≠ 0) : m.pulseFails pulses (x :: y :: after) :=
  ⟨y, after, stops_second m x y after hx (stray_ne m y hy), .inl hy⟩

/-! ### WellFormed: an ill-formed term for each check -/

/-- 61 bytes, one more than a record carries. -/
def tooLong : Bytes := List.replicate 61 0

theorem test_wf_stageAssign_value : (Instr.stageAssign .port0 1 0 (List.replicate 256 0) .none).wf = false := by decide +kernel
theorem test_wf_stageAssign_guard : (Instr.stageAssign .port0 1 0 [] (.equals (List.replicate 256 0))).wf = false := by decide +kernel
theorem test_wf_stageAssign_record : (Instr.stageAssign .port0 1 0 tooLong .none).wf = false := by decide +kernel
theorem test_wf_stageRetire_guard : (Instr.stageRetire .port0 1 0 (.equals (List.replicate 256 0))).wf = false := by decide +kernel
theorem test_wf_stageRetire_record : (Instr.stageRetire .port0 1 0 (.equals tooLong)).wf = false := by decide +kernel
theorem test_wf_overlaySet_record : (Instr.overlaySet .port0 1 0 tooLong 0 false).wf = false := by decide +kernel
theorem test_wf_unknownKind_known : (Instr.unknownRequestKind .port0 1 0x01 []).wf = false := by decide +kernel
theorem test_wf_unknownKind_record : (Instr.unknownRequestKind .port0 1 0x7F tooLong).wf = false := by decide +kernel
theorem test_wf_unknownCode_known : (Instr.unknownControlCode .window0 0xA1).wf = false := by decide +kernel
theorem test_wf_requestArea_below : (Instr.requestAreaWrite .window0 0x0F 0).wf = false := by decide +kernel
theorem test_wf_requestArea_above : (Instr.requestAreaWrite .window0 0x50 0).wf = false := by decide +kernel
theorem test_wf_windowIgnored_listed : (Instr.windowWriteIgnored .window0 0x10 0).wf = false := by decide +kernel
theorem test_wf_req_record : (Instr.req 1 1 tooLong).wf = false := by decide +kernel
theorem test_wf_discarded_taken : (Instr.frameDiscarded (frameBytes .ack 1 0 []) .endMark).wf = false := by decide +kernel
theorem test_wf_gain_outside : (Instr.cellBitGain 0x3000 1).wf = false := by decide +kernel
theorem test_wf_noise_startMark : (Instr.preambleOrNoise 24000).wf = false := by decide +kernel
theorem test_wf_noise_loss : (Instr.preambleOrNoise 5000001).wf = false := by decide +kernel

/-! ### The manual's worked values -/

/-- The GET of section 9.9 and its answer as R182 spells them. -/
theorem test_get_record : (RequestKind.get.record 0x09 (bytes16 0x023)).bytes = [0x01, 0x09, 0x02, 0x00, 0x23] := by decide +kernel
theorem test_get_response : (Response.bytes ⟨.ok, 0x09, [0x00, 0x23, 0x00, 0x02, 0x03, 0x84]⟩) =
    [0x00, 0x09, 0x06, 0x00, 0x23, 0x00, 0x02, 0x03, 0x84] := by decide +kernel
/-- R8: 00FF0F0Fh meets GRANT_RULE, 007F7F7Fh does not. -/
theorem test_grantRule : ((descriptor? 0x7F0).map fun d =>
    (d.inRange [0x00, 0xFF, 0x0F, 0x0F], d.inRange [0x00, 0x7F, 0x7F, 0x7F])) = some (true, false) := by decide +kernel
/-- R1: 160 keys, 04Fh at position 79 and 7F4h at the last. -/
theorem test_catalog : (catalogKeys.length, catalogKeys[79]?, catalogKeys[159]?) = (160, some 0x04F, some 0x7F4) := by decide +kernel

/-! ### Requests, each on one step -/

theorem test_get : reply .port0 (.get .port0 9 0x7F3) booted = some (.ok, [0x07, 0xF3, 0x00, 0x01, 20]) := by decide +kernel
theorem test_get_overlay : reply .port1 (.get .port1 9 0x000) overlaid = some (.ok, [0x00, 0x00, 0x01, 0x01, 0x55]) := by decide +kernel
theorem test_getDetail : reply .port0 (.getDetail .port0 9 0x000) overlaid =
    some (.ok, [0, 0, 0, 0, 0, 0, 0, 1, 0, 0xFF, 1, 0x55, 0, 0, 0, 3]) := by decide +kernel
/-- Section 11.3: the descriptor of GRANT_MAP, spelled out there. -/
theorem test_catalogRead : reply .port0 (.catalogRead .port0 9 155) booted =
    some (.ok, [0x07, 0xF0, 155, 2, 4, 7, 0, 0, 0, 0, 0, 0, 0x00, 0xFF, 0xFF, 0xFF, 1, 4, 0x00, 0x0F, 0x7F, 0xFF]) := by decide +kernel
theorem test_catalogRead_beyond : reply .port0 (.catalogRead .port0 9 160) booted = some (.range, []) := by decide +kernel
theorem test_open : reply .port1 (.openSession .port1 9) booted = some (.ok, [1, 0]) := by decide +kernel
theorem test_open_again : reply .port0 (.openSession .port0 9) opened = some (.ok, [2, 1]) := by decide +kernel
theorem test_close : ((after (.closeSession .port0 9) staged).staging.port0) = ⟨.empty, []⟩ := by decide +kernel
theorem test_watch : reply .port0 (.watch .port0 9 0x010 0x01F) opened = some (.ok, [2]) := by decide +kernel
theorem test_unwatch_part : reply .port0 (.unwatch .port0 9 0x000 0x00F) opened = some (.notFound, []) := by decide +kernel
theorem test_noticeRead_link : reply .port2 (.noticeRead .port2 9) noticed = some (.notAllowed, []) := by decide +kernel
theorem test_stageAssign_again : (after (.stageAssign .port0 9 0x020 [0, 1] .untouched)
    (opened.setStaging .port0 ⟨.building, [{ twelve with pin := true }]⟩)).staging.port0 =
    ⟨.building, [⟨0x020, .assign [0, 1], true, .untouched⟩]⟩ := by decide +kernel
theorem test_stageAssign_form : reply .port0 (.stageAssign .port0 9 0x020 [1] .none) opened = some (.badLength, []) := by decide +kernel
theorem test_stageRetire : (after (.stageRetire .port0 9 0x7F3 (.equals [20])) opened).staging.port0 =
    ⟨.building, [⟨0x7F3, .retire, false, .equals [20]⟩]⟩ := by decide +kernel
theorem test_stagePin : (after (.stagePin .port0 9 0x021) staged).staging.port0.actions =
    [twelve, ⟨0x021, .keep, true, .none⟩] := by decide +kernel
theorem test_stagePin_denied : reply .port2 (.stagePin .port2 9 0x040) opened = some (.denied, []) := by decide +kernel
theorem test_stageDrop : (after (.stageDrop .port0 9 0x020) staged).staging.port0 = ⟨.empty, []⟩ := by decide +kernel
theorem test_stageClear : (after (.stageClear .port0 9) staged).staging.port0 = ⟨.empty, []⟩ := by decide +kernel
theorem test_stageList : reply .port0 (.stageList .port0 9 0) staged =
    some (.ok, [1, 0, 7, 0x00, 0x20, 0x01, 2, 0x12, 0x34, 0]) := by decide +kernel
theorem test_commit_plan : (writing.writer, writing.active.map ActiveJob.todo) =
    (.body, some [(0, 1), (1, 1), (2, 0), (3, 0x20), (4, 2), (5, 0x12), (6, 0x34)]) := by decide +kernel
/-- R62: BURN_EN low; a bit that the planned slot gained after the replay (R106); R85: the same bit at the replay. -/
theorem test_commit_fails : (after (.commit .port0 9) { staged with burnEn := false }).session.port0.lastCommit =
    ⟨.locked, none, none, 1⟩ ∧ (bootedOn [(0x2FF5, 0x01)]).journal = .full ∧
    (after (.commit .port0 9) { staged with array := [(0x2FF5, 0x01)] }).session.port0.lastCommit = ⟨.notBlank, none, none, 1⟩ ∧
    (after (.commit .port0 9) { staged with array := [(0x2FF5, 0x01)] }).journal = .faulted := by decide +kernel
/-- R59, R76: after the grant and before the precheck that ends the job LOCKED. -/
theorem test_abort_granted : reply .port0 (.abort .port0 9)
    { granted with handler := booted.handler, window := booted.window, burnEn := false } = some (.tooLate, []) ∧
    (after (.burnPulse 0) { granted with burnEn := false }).session.port0.lastCommit = ⟨.locked, none, none, 1⟩ := by
  decide +kernel
theorem test_abort_burning : reply .port0 (.abort .port0 9) { writing with handler := booted.handler, window := booted.window } =
    some (.tooLate, []) := by decide +kernel
theorem test_commitResult : reply .port0 (.commitResult .port0 9) staged = some (.ok, [0, 0, 0, 0xFF, 0, 1, 1]) := by decide +kernel
theorem test_overlaySet : (after (.overlaySet .port2 9 0x000 [7] 0 true) opened).overlays =
    [⟨0, [7], .port2, 1, true, none, false⟩] := by decide +kernel
theorem test_overlaySet_owned : reply .port2 (.overlaySet .port2 9 0x000 [7] 0 false) overlaid = some (.owned, []) := by decide +kernel
theorem test_overlayClear : (after (.overlayClear .port0 9 0x000) overlaid).overlays = [] := by decide +kernel
theorem test_overlayList : reply .port0 (.overlayList .port0 9 0) overlaid =
    some (.ok, [1, 0, 0, 1, 0x55, 0, 1, 0, 0, 3]) := by decide +kernel
theorem test_revoke : (after (.revoke .port0 9 1) sealed).active.map ActiveJob.todo = some [(0x2FFF, 0xFF)] := by decide +kernel
theorem test_revoke_zero : reply .port0 (.revoke .port0 9 0) sealed = some (.range, []) := by decide +kernel
theorem test_rebuild : (after (.rebuild .port0 9) opened).replay = .rebuilding := by decide +kernel
theorem test_journalStat : reply .port0 (.journalStat .port0 9) sealed =
    some (.ok, [1, 0, 0, 7, 0x2F, 0xF0, 0x2F, 0xE9, 0, 1] ++ List.replicate 15 0) := by decide +kernel
theorem test_journalRead : reply .port0 (.journalRead .port0 9 0x2FFE 2) { booted with array := [(0x2FFE, 0xA5)] } =
    some (.ok, [0xA5, 0]) := by decide +kernel
theorem test_journalRead_end : reply .port0 (.journalRead .port0 9 0x2FFE 3) booted = some (.range, []) := by decide +kernel
theorem test_entryRead : reply .port0 (.entryRead .port0 9 1) sealed = some (.ok, [0, 1, 1, 0, 0, 0, 0, 7, 1, 1]) := by decide +kernel
theorem test_linkStat : reply .port0 (.linkStat .port0 9 true) (booted.setLink { booted.link with losses := 0x102 }) =
    some (.ok, [0, 0, 0, 0, 1, 2, 20]) := by decide +kernel
/-- R148, R182: an argument too many, a guard code not defined, 52 bytes of value and guard in one STAGE_ASSIGN. -/
theorem test_malformed : [RequestKind.get.record 9 [0, 0x20, 0], RequestKind.stageRetire.record 9 [0, 0x20, 3],
    RequestKind.stageAssign.record 9 (stageAssignArgs 0x100 (List.replicate 32 1) (.equals (List.replicate 20 2)))].map
    Record.request? = [none, none, none] := by decide +kernel
theorem test_unknownKind : reply .port0 (.unknownRequestKind .port0 9 0x7F []) booted = some (.badRequest, []) := by decide +kernel

/-! ### The other commands, each on one step -/

/-- The answer EMPTY (12h in Table 8-2) to tag 3 fills the response area. -/
theorem test_answer_window : (after (.answerReady .port0) (answering .port0 false)).window.window0.responseArea.take 4 =
    [Status.empty.code, 3, 0, 0] := by decide +kernel
theorem test_answer_link : (after (.answerReady .port2) (answering .port2 false)).link.pending = some .response := by decide +kernel
theorem test_heldRead : (after (.journalRead .port0 9 0 1) rebuilding).handler.port0.service = .held := by decide +kernel
theorem test_heldRead_served : (after (.heldJournalReadServed .port0)
    { opened with handler := (after (.journalRead .port0 9 0 1) rebuilding).handler }).window.window0.responseArea.take 4 =
    [0, 9, 1, 0] := by decide +kernel

/-- The request area holding the GET of section 9.9, and GO. -/
def getWritten : State :=
  booted.setWindow .window0
    { booted.window.window0 with requestArea := [0x01, 0x09, 0x02, 0x00, 0x23] ++ List.replicate 59 0 }

theorem test_go : (after (.go .window0) getWritten).handler.port0.current = some (RequestKind.get.record 9 [0, 0x23]) := by decide +kernel
theorem test_go_starting : answer .port0 (after (.go .window0) State.reset) = some (.starting, []) := by decide +kernel
theorem test_take : (after (.take .window0)
    (booted.setWindow .window0 { booted.window.window0 with state := .answered, overrun := 3 })).window.window0.overrun = 0 := by decide +kernel
theorem test_take_submitted : (after (.take .window0)
    (booted.setWindow .window0 { booted.window.window0 with state := .submitted })).window.window0.overrun = 1 := by decide +kernel
theorem test_portReset : (after (.portReset .window0) staged).session.port0.isOpen = false := by decide +kernel
theorem test_unknownCode : (after (.unknownControlCode .window0 0) booted).window.window0.overrun = 1 := by decide +kernel
theorem test_requestArea_last : (after (.requestAreaWrite .window0 0x4F 0xAB) booted).window.window0.requestArea[63]? = some 0xAB := by decide +kernel
theorem test_attnEnable : (after (.attnEnableWrite .window0 0xFF) booted).window.window0.attnEnable = 3 := by decide +kernel
theorem test_writeIgnored : (after (.windowWriteIgnored .window0 0x50 0xAB) booted).window.window0.responseArea =
    booted.window.window0.responseArea := by decide +kernel
theorem test_pointer_i2c : (after (.windowPointerSet .window0 0x81) booted).window.window0.pointer = 0x81 := by decide +kernel
theorem test_pointer_spi : (after (.windowPointerSet .window0 0x81)
    spiPort).window.window0.pointer = 0x01 := by decide +kernel
/-- R159: within a read transaction a byte the master sends is not written. -/
theorem test_spi_read_ignores : ((after (.attnEnableWrite .window0 3) (after (.windowPointerSet .window0 0x82)
    spiPort)).window.window0.attnEnable, (after (.attnEnableWrite .window0 3) (after (.windowPointerSet .window0 0x82)
    spiPort)).window.window0.busOut) = (1, some 1) := by decide +kernel
theorem test_byteRead_state : (after (.windowByteRead .window0) booted).window.window0.busOut = some 0x01 := by decide +kernel
/-- R159: MISO is released once CS has risen after the byte read. -/
theorem test_byteRead_last : (fun x : Window => (x.busOut, x.miso, x.spi))
    (after (.windowByteRead .window0) (spiBegun 0x82 [false, true])).window.window0 =
    (some 1, none, .deselected) := by decide +kernel
/-- R159: within a write transaction the byte lands at the pointer; one for another offset is a transaction of its own. -/
theorem test_spi_write : ((after (.requestAreaWrite .window0 0x10 0xAB) (spiBegun 0x10 [false])).window.window0.spi,
    (after (.requestAreaWrite .window0 0x10 0xAB) (spiBegun 0x10 [false])).window.window0.miso,
    (after (.requestAreaWrite .window0 0x20 0xAB) (spiBegun 0x10 [false])).window.window0.spi) =
    (.writing, some 0, .deselected) := by decide +kernel

theorem test_req : (after (.req 7 0x01 [0, 0x23]) booted).handler.port2.service = .waiting := by decide +kernel
theorem test_req_repeat : (after (.req 7 0x01 [0, 0x23]) stored).link.pending = some .response := by decide +kernel
theorem test_ack : (after (.ack 1 0) sent).session.port2.queue = [] := by decide +kernel
theorem test_ack_other : (after (.ack 2 0) sent).session.port2.queue = [⟨1, changed⟩] := by decide +kernel
theorem test_resetFrame : (after (.resetFrame 0 0) stored).handler.port2.stored = none := by decide +kernel
theorem test_discarded : (after (.frameDiscarded [1, 2] .endMark) booted).link.crcErrors = 1 := by decide +kernel
theorem test_discarded_note : (after (.frameDiscarded (frameBytes .note 1 5 [0]) .endMark) booted).link.crcErrors = 0 := by decide +kernel
theorem test_turnaround : (after .turnaroundComplete (noticed.setLink { booted.link with state := .turn })).link.sending =
    some (.note true) := by decide +kernel
theorem test_sendComplete : (after .frameSendComplete
    (noticed.setLink { booted.link with state := .tx, sending := some (.note true) })).link.timer = .running 20 := by decide +kernel
theorem test_expiry_resend : (after .ackTimerExpiry sent).link.timer = .expired := by decide +kernel
theorem test_expiry_fourth : (after .ackTimerExpiry (sent.setLink { sent.link with sendCount := 4 })).link.losses = 1 := by decide +kernel
theorem test_linkLoss : (after .linkLoss sent).session.port2.isOpen = false := by decide +kernel
theorem test_lineReleased : (after .linkLineReleased (booted.setLink { booted.link with state := .heldLow })).link.state = .idle := by decide +kernel
theorem test_startMark_collision : (after .startMark sent).link.collisions = 0 := by decide +kernel
/-- R168: the eighth bit completes a byte, most significant bit first. -/
theorem test_noise_bits : ((after (.preambleOrNoise 6000)
    (receiving [true, false, true, false, false, true, false])).link.buffer[0]?) = some 0xA5 := by decide +kernel
/-- R168, R169: an end mark after no bits ends a frame of no bytes, which is discarded. -/
theorem test_noise_endMark : ((after (.preambleOrNoise 16000) (receiving [])).link.crcErrors,
    (after (.preambleOrNoise 16000) (receiving [])).link.state) = (1, .turn) := by decide +kernel
theorem test_noise_violation : (after (.preambleOrNoise 32000) (booted.setLink { booted.link with state := .rx })).link.crcErrors = 1 := by decide +kernel

theorem test_deviceReset : (after (.deviceReset 0xFF) writing).array = [(0, 0x01)] := by decide +kernel
theorem test_deviceReset_session : (after (.deviceReset 0) staged).session.port0 = Session.reset := by decide +kernel
theorem test_resetRelease : (after (.resetRelease .vss .vdd) inReset).replay = .startup := by decide +kernel
theorem test_startup : { after .startupReplayDone State.reset with burnEn := true } = booted := by decide +kernel
/-- R86, R106: a malformed slot 0 with a well-formed marker in slot 1 above it. -/
theorem test_startup_full : (bootedOn [(0x2FE0, 0xD5), (0x2FF0, 0x01)]).journal = .full := by decide +kernel
theorem test_rebuildInstall : (after .rebuildInstall rebuilding).session.port0.queue.map Notice.body =
    [.rebuilt .port0, .rebuildDone ⟨0, 0, 0, 0, 0, 0⟩] := by decide +kernel
theorem test_tick_due : ((after .timebaseTick { opened with overlays := [{ overlay with remaining := some 1 }] }).overlays.map
    OverlayRecord.due) = [true] := by decide +kernel
/-- R175: the expiry after the fourth send comes no later than the tick after the last of the window's. -/
theorem test_tick_expiry : (after .timebaseTick (sent.setLink { sent.link with sendCount := 4 })).link.losses = 1 := by
  decide +kernel
theorem test_expired : (after .overlayExpired { opened with overlays := [{ overlay with remaining := some 1, due := true }] }).overlays =
    [] := by decide +kernel
theorem test_burnPulse_part : ((after (.burnPulse 0x04) (writingAt .seal [(0x2FFE, 0xA5)] 2)).array,
    (after (.burnPulse 0x04) (writingAt .seal [(0x2FFE, 0xA5)] 2)).active.map ActiveJob.pulses) =
    ([(0x2FFE, 0x04)], some 3) := by decide +kernel
theorem test_burnPulse_seal : ((after (.burnPulse 0xA5) sealing).table[32]?.map KeyRecord.active,
    (after (.burnPulse 0xA5) sealing).session.port0.lastCommit) = (some [0x12, 0x34], ⟨.done, some 1, none, 1⟩) := by decide +kernel
/-- R41: after the seal and before the patch ENTRY_READ shows SEALED (01h) with applied no. -/
theorem test_pause_sealed : (reply .port1 (.entryRead .port1 9 1) (after (.burnPulse 0xA5) (pausing sealing))).map
    (fun r => (r.2[2]?, r.2[9]?)) = some (some 1, some 0) := by decide +kernel
/-- R130: between the last VALUE_CHANGED of a commit and its COMMIT_DONE the queue holds the one alone. -/
theorem test_pause_applied :
    (after (.burnPulse 0) (after (.burnPulse 0xA5) (pausing sealing))).session.port0.queue.map Notice.body =
    [changed] := by decide +kernel
/-- R156: the new body top with the old count of slots used. -/
theorem test_pause_body : (reply .port1 (.journalStat .port1 9) (after (.burnPulse 0x34)
    (pausing (writingAt .body [(6, 0x34)] 0)))).map (fun r => (r.2.drop 2).take 8) =
    some [0, 7, 0x30, 0, 0x2F, 0xF9, 0, 0] := by decide +kernel
theorem test_verify_bad : (after .verify (writingAt .verify [] 0)).writer = .voiding := by decide +kernel
theorem test_bitGain : (after (.cellBitGain 0x2FFF 0x80) booted).array = [(0x2FFF, 0x80)] := by decide +kernel
theorem test_burnEn : (after (.burnEnChange false) booted).burnEn = false := by decide +kernel

/-! ### Witnesses: states that meet the hypotheses of the statements -/

/-- StepTakesFront: a queue with a command, and an empty one. -/
theorem witness_StepTakesFront : ({ booted with pending := [.timebaseTick] } : State).pending = .timebaseTick :: [] ∧
    booted.pending = [] := by decide +kernel

/-- DeviceEvents: the array in form, RESET asserted, and a command that changes nothing there, RESET released, the last
cell and the first offset beyond. -/
theorem witness_DeviceEvents : writing.array.wf = true ∧ inReset.resetAsserted = true ∧
    after (.windowByteRead .window0) inReset = inReset ∧
    booted.resetAsserted = false ∧ (0x2FFF#16).toNat < 0x3000 ∧ 0x3000 ≤ (0x3000#16).toNat := by decide +kernel

/-- A seal pulse at the front of the queue: the step of the invariants' witnesses. -/
def stepping : State := { sealing with pending := [.burnPulse 0xA5] }

/-- Some step is taken. -/
theorem witness_step : ∃ t, step stepping = .next t := ⟨_, rfl⟩

/-- ArrayOnlyGains. -/
theorem witness_ArrayOnlyGains : stepping.array.wf = true := by decide +kernel

/-- ChangedOnlyBy: the pulse changes the array and, at the seal, the table. -/
theorem witness_ChangedOnlyBy : exec (.burnPulse 0xA5) sealing = .next (after (.burnPulse 0xA5) sealing) ∧
    (after (.burnPulse 0xA5) sealing).array ≠ sealing.array ∧
    (after (.burnPulse 0xA5) sealing).table ≠ sealing.table := ⟨rfl, by decide +kernel, by decide +kernel⟩

/-- JournalLawKept. -/
theorem witness_JournalLawKept : stepping.journalLaw := by
  unfold State.journalLaw State.indexNumbered State.regionsApart State.grantLaw State.planLaw
  refine ⟨by decide +kernel, by decide +kernel, by decide +kernel, by decide +kernel, fun a h => ?_⟩
  cases h
  exact ⟨fun h => absurd h (by decide +kernel), fun _ h => by simp [jobAt] at h⟩

/-- QueueLawKept. -/
theorem witness_QueueLawKept : stepping.queueLaw := by
  unfold State.queueLaw
  decide +kernel

/-- TableLawKept. -/
theorem witness_TableLawKept : stepping.tableLaw := by
  refine ⟨by decide +kernel, ?_, by decide +kernel⟩
  have h : ∀ r ∈ stepping.table, r.pending = none ∧ r.pinSeq.isSome = r.pinned := by decide +kernel
  intro r hr
  refine ⟨fun v hv => ?_, (h r hr).2⟩
  rw [(h r hr).1] at hv
  cases hv

/-- StartupLawKept: a start-up replay under way, and a state past it. -/
theorem witness_StartupLawKept : State.reset.startupLaw ∧ stepping.startupLaw := by
  constructor
  · intro _
    unfold State.blank
    rw [forall_port]
    decide +kernel
  · rintro (h | h)
    · exact absurd h (by decide +kernel)
    · exact absurd h (by decide +kernel)

/-- OverlayLawKept, with an overlay in the table. -/
theorem witness_OverlayLawKept : ({ overlaid with pending := [.timebaseTick] } : State).overlayLaw := by
  unfold State.overlayLaw State.boundLaw
  decide +kernel

/-- StagingLawKept. -/
theorem witness_StagingLawKept : stepping.stagingLaw := by
  intro p
  unfold StagingList.lawful
  cases p <;> decide +kernel

/-- NoticeLawKept. -/
theorem witness_NoticeLawKept : noticed.noticeLaw := by
  intro p
  unfold Session.queueLawful
  cases p <;> decide +kernel

/-- SessionLawKept. -/
theorem witness_SessionLawKept : stepping.sessionLaw := by
  refine ⟨fun p => ?_, ?_⟩
  · unfold Session.closedClean
    cases p <;> decide +kernel
  · unfold State.claimLaw
    decide +kernel

/-- LinesFollow. -/
theorem witness_LinesFollow : booted.attnLaw ∧ booted.linkLaw ∧ booted.areasSized := by
  refine ⟨fun w => ?_, ?_, fun w => ?_, ?_⟩
  · cases w <;> decide +kernel
  · unfold State.linkLaw
    decide +kernel
  · cases w <;> decide +kernel
  · decide +kernel

/-- RequestRecordsRead: the longest assignment with its guard, a guarded retire, a blob overlay. -/
theorem witness_RequestRecordsRead :
    (Instr.stageAssign .port0 1 0x100 (List.replicate 32 1) (.equals (List.replicate 19 2))).wf = true ∧
    (List.replicate 32 (1 : Byte)).length + (guardOf (.equals (List.replicate 19 2))).length ≤ 51 ∧
    (Instr.stageRetire .port0 1 0x100 (.equals (List.replicate 32 1))).wf = true ∧
    (Instr.overlaySet .port0 1 0x000 (List.replicate 54 1) 0xFFFF true).wf = true ∧
    (RequestKind.stageAssign.record 1
      (stageAssignArgs 0x100 (List.replicate 32 1) (.equals (List.replicate 19 2)))).request? =
      some (.stageAssign 0x100 (List.replicate 32 1) (.equals (List.replicate 19 2))) := by decide +kernel

/-- FramesRead: the longest payload, an ACK, a frame that reads, and a link that sends it. -/
theorem witness_FramesRead : readFrame (frameBytes .req 7 1 [0, 0x23]) = some (.req, 7, 1, [0, 0x23]) ∧ (List.replicate 60 (0xFF : Byte)).length ≤ 60 ∧
    (FrameType.req = .ack ∨ FrameType.req = .reset → List.replicate 60 (0xFF : Byte) = []) ∧
    (FrameType.ack = .ack ∨ FrameType.ack = .reset → ([] : Bytes) = []) ∧
    (∃ l : Link, l.state = .tx ∧
      l.buffer = loadBuffer Link.reset.buffer (frameBytes .rsp 7 0 (List.replicate 60 0xFF))) := by
  refine ⟨by decide +kernel, by decide +kernel, by decide +kernel, by decide +kernel, ?_⟩
  exact ⟨{ Link.reset with
    state := .tx, buffer := loadBuffer Link.reset.buffer (frameBytes .rsp 7 0 (List.replicate 60 0xFF)) }, rfl, rfl⟩

/-- BodiesRead: an assignment, a pinned retire and a keep; and a body that reads. -/
theorem witness_BodiesRead :
    let actions : List Action := [twelve, ⟨0x7F0, .retire, true, .untouched⟩, ⟨0x100, .keep, true, .none⟩]
    1 ≤ actions.length ∧ actions.length ≤ 24 ∧ (actions.map Action.key).Nodup ∧
    (∀ a ∈ actions, (descriptor? a.key).isSome = true) ∧
    (descriptor? 0x020).map (fun c => c.hasForm [0x12, 0x34] && c.inRange [0x12, 0x34]) = some true ∧
    readBody 1 [1, 1, 0, 0x20, 2, 0x12, 0x34] = some [twelve] := by decide +kernel

/-- CrcTellsBytes. -/
theorem witness_CrcTellsBytes : (0x00 : Byte) ≠ 0x01 := by decide +kernel

/-- An array whose slot 0 is malformed, and one whose slot 0 is well formed. -/
def malformedArray : Memory := [(0x2FF0, 0x01)]
def oneSlot : Memory := [(0x2FF0, 0xD5), (0x2FF1, 0x3C), (0x2FF3, 0x01), (0x2FF9, 0x05)]

/-- DirectoryAndHighwater: a directory that ends blank, one that ends malformed, a recorded range of blank bytes, a byte
that counts, and a bit in the slot that ended the directory blank. -/
theorem witness_DirectoryAndHighwater :
    directoryEnd oneSlot 0 256 = (1, false) ∧ directoryEnd malformedArray 0 256 = (1, true) ∧
    oneSlot.wf = true ∧ highwater oneSlot 1 [⟨1, .torn, 0, 0, 5, 0, false⟩] = 5 ∧
    highwater [(7, 1)] 0 [] = 8 ∧ highwater [(7, 1), (0x2FF5, 1)] 0 [] = 0x2FF6 ∧
    highwater ((0x2FD4, 1) :: malformedArray) 1 [] = 0x2FD5 := by
  decide +kernel

/-- ReplayAccounts: the record of a TORN slot and of a malformed end slot. -/
theorem witness_ReplayAccounts :
    ((replayRun oneSlot WorkingResult.defaults).index[0]?).map IndexRecord.state = some .torn ∧
    ((replayRun malformedArray WorkingResult.defaults).index[0]?).map IndexRecord.state = some .corrupt := by
  decide +kernel

/-- StartupRebuildsTable and the first half of StartupInstalls, with StartupLawKept's witness. -/
theorem witness_StartupInstalls : State.reset.resetAsserted = false ∧ State.reset.replay = .startup ∧
    exec .startupReplayDone State.reset = .next (after .startupReplayDone State.reset) ∧
    booted.replay ≠ .startup := ⟨rfl, rfl, rfl, by decide +kernel⟩

/-- StartupRebuildsTable and StartupInstalls: the table law of that state. -/
theorem witness_StartupInstalls_table : State.reset.tableLaw := by
  refine ⟨by decide +kernel, ?_, by decide +kernel⟩
  have h : ∀ r ∈ State.reset.table, r.pending = none ∧ r.pinSeq.isSome = r.pinned := by decide +kernel
  intro r hr
  refine ⟨fun v hv => ?_, (h r hr).2⟩
  rw [(h r hr).1] at hv
  cases hv

/-- RebuildInstalls: a run under way with no job waiting, one with a revoke waiting that the writer takes, and none. -/
theorem witness_RebuildInstalls :
    let job : Job := ⟨.port0, .revoke 1, 1, true⟩
    let s : State :=
      { rebuilding with
        burnQueue := [job]
        array := burned
          (burnsAt 0 (bodyBytes [twelve]) ++
            burnsAt 0x2FF0 (entryBytes 0x3C 1 0 1 0 7 (crc32 (bodyBytes [twelve])) ++ [0xA5])) }
    rebuilding.resetAsserted = false ∧ rebuilding.replay = .rebuilding ∧ rebuilding.burnQueue = [] ∧
    s.resetAsserted = false ∧ s.replay = .rebuilding ∧ s.burnQueue = job :: [] ∧
    (after .rebuildInstall s).writer = .revoking ∧
    booted.resetAsserted = false ∧ booted.replay ≠ .rebuilding := by decide +kernel

/-- BurnPulseGoesOn: a byte left short after its third pulse, and a byte that succeeds before a blank target. -/
theorem witness_BurnPulseGoesOn :
    let todo : List (Nat × Byte) := [(0, 1), (2, 0), (3, 0x20)]
    let s := writingAt .body todo 2
    (s.resetAsserted = false ∧ s.grant = .writer ∧ s.active = some (jobAt todo 2) ∧
      (jobAt todo 2).moment = .none ∧ (jobAt todo 2).todo = todo ∧
      s.writer ∈ [WriterState.body, .entry, .seal, .voiding, .revoking] ∧ s.array.wf = true ∧
      (s.arrayAfterPulse 0 0).read 0 ≠ 1 ∧ ¬(s.arrayAfterPulse 0 0).stray (0, 1) ∧ 2 + 1 < 4 ∧
      (s.arrayAfterPulse 0 1).read 0 = 1 ∧ ¬(s.arrayAfterPulse 0 1).stray (3, 0x20)) ∧
    (s.arrayAfterPulse 0 1).stopsAt [(2, 0), (3, 0x20)] (3, 0x20) [] := by
  unfold Memory.stray
  exact ⟨by decide +kernel, stops_second _ _ _ _ (by decide +kernel) (by decide +kernel)⟩

/-- BodyEnds, the last pulse: the last byte succeeds; it fails at its fourth pulse; a later byte holds a stray bit; and
the moment after. -/
theorem witness_BodyEnds :
    let s := writingAt .body [(6, 0x34)] 3
    let t : State := { writingAt .body [(5, 0x12), (6, 0x34)] 0 with array := [(6, 0x80)] }
    (s.resetAsserted = false ∧ s.grant = .writer ∧ s.writer = .body ∧ s.active = some (jobAt [(6, 0x34)] 3) ∧
      (jobAt [(6, 0x34)] 3).moment = .none ∧ (s.arrayAfterPulse 6 0x34).burnt [(6, 0x34)] ∧
      t.active = some (jobAt [(5, 0x12), (6, 0x34)] 0) ∧
      (after (.burnPulse 0x34) (pausing s)).active.map ActiveJob.moment = some (.bodyEnded true)) ∧
    (s.arrayAfterPulse 6 0x30).pulseFails 3 [(6, 0x34)] ∧
    (t.arrayAfterPulse 5 0x12).pulseFails 0 [(5, 0x12), (6, 0x34)] := by
  unfold Memory.burnt
  exact ⟨by decide +kernel, fails_fourth _ _ _ _ (by decide +kernel) (by decide),
    fails_later _ _ _ _ _ (by decide +kernel) (by decide +kernel)⟩

/-- The bytes of slot 0 for an entry and for a whole void of that plan. -/
def entrySlot : List (Nat × Byte) :=
  burnsAt (slotOffset 0)
    ([0xD5, 0x3C] ++ (bytesOfNat 2 (0 + 1) ++ [0, 1] ++ bytesOfNat 2 0 ++ bytesOfNat 2 7) ++
      bytesOfNat 4 (crc32 (bodyBytes [twelve])).toNat)
def voidSlot : List (Nat × Byte) :=
  burnsAt (slotOffset 0)
    ([0xD5, 0xFF] ++ (bytesOfNat 2 (0 + 1) ++ [0, 1] ++ bytesOfNat 2 0 ++ bytesOfNat 2 7) ++ [0, 0, 0, 0] ++ [0xA5])

/-- BodyEnds, the slot: all its bytes standing, the first blank, the first with a stray bit. -/
theorem witness_BodyEnds_slot : ∀ todo ∈ [entrySlot, voidSlot],
    (burned todo).burnt todo ∧ Memory.stopsAt [] todo (0x2FF0, 0xD5) todo.tail ∧
    ¬Memory.stray [] (0x2FF0, 0xD5) ∧ Memory.stopsAt [(0x2FF0, 0x02)] todo (0x2FF0, 0xD5) todo.tail ∧
    Memory.stray [(0x2FF0, 0x02)] (0x2FF0, 0xD5) := by
  have h : ∀ todo ∈ [entrySlot, voidSlot],
      (∀ x ∈ todo, (burned todo).read x.1 = x.2) ∧ todo = (0x2FF0, 0xD5) :: todo.tail := by decide +kernel
  intro todo hm
  obtain ⟨h1, h2⟩ := h todo hm
  have stops (m : Memory) (hne : m.read 0x2FF0 ≠ 0xD5) : m.stopsAt todo (0x2FF0, 0xD5) todo.tail :=
    ⟨[], h2, fun _ hy => (by cases hy), hne⟩
  unfold Memory.stray
  exact ⟨h1, stops _ (by decide +kernel), by decide +kernel, stops _ (by decide +kernel), by decide +kernel⟩

/-- SlotGoesOn, VERIFY: a body that agrees before a blank seal and before a stray one, and one that does not. -/
theorem witness_SlotGoesOn_verify :
    let s := writingAt .verify [] 0
    let t := { s with array := [(0, 1), (1, 1), (3, 0x20), (4, 2), (5, 0x12), (6, 0x34)] }
    t.writer = .verify ∧ t.active = some (jobAt [] 0) ∧ t.grant = .writer ∧ t.resetAsserted = false ∧
    crc32 (t.array.readRange 0 7) = crc32 (bodyBytes [twelve]) ∧ t.array.read (slotOffset 0 + 14) ≠ 0xA5 ∧
    ¬t.array.stray (slotOffset 0 + 14, 0xA5) ∧
    ({ t with array := t.array ++ [(0x2FFE, 0x02)] } : State).array.stray (slotOffset 0 + 14, 0xA5) ∧
    crc32 (s.array.readRange 0 7) ≠ crc32 (bodyBytes [twelve]) := by
  unfold Memory.stray
  decide +kernel

/-- SlotGoesOn, ENTRY and SEAL: the last byte succeeds; a fourth pulse fails ENTRY, and a later byte with a stray bit; a
stray bit fails the seal. -/
theorem witness_SlotGoesOn_burn :
    let s := writingAt .entry [(0x2FFD, 0x01)] 3
    let t : State := { writingAt .entry [(0x2FFC, 0x80), (0x2FFD, 0x01)] 0 with array := [(0x2FFD, 0x02)] }
    (s.writer = .entry ∧ s.active = some (jobAt [(0x2FFD, 0x01)] 3) ∧ (jobAt [(0x2FFD, 0x01)] 3).moment = .none ∧
      (s.arrayAfterPulse 0x2FFD 1).burnt [(0x2FFD, 0x01)] ∧
      t.active = some (jobAt [(0x2FFC, 0x80), (0x2FFD, 0x01)] 0)) ∧
    (s.arrayAfterPulse 0x2FFD 0).pulseFails 3 [(0x2FFD, 0x01)] ∧
    (t.arrayAfterPulse 0x2FFC 0x80).pulseFails 0 [(0x2FFC, 0x80), (0x2FFD, 0x01)] ∧
    (sealing.arrayAfterPulse 0x2FFE 0x02).pulseFails 0 [(0x2FFE, 0xA5)] := by
  unfold Memory.burnt
  exact ⟨by decide +kernel, fails_fourth _ _ _ _ (by decide +kernel) (by decide),
    fails_later _ _ _ _ _ (by decide +kernel) (by decide +kernel), fails_stray _ _ _ _ (by decide +kernel)⟩

/-- SlotGoesOn, the void of a begun slot: both bytes standing, the kind to burn, the seal with a stray bit. -/
theorem witness_SlotGoesOn_void :
    let void : List (Nat × Byte) := [(slotOffset 0 + 1, 0xFF), (slotOffset 0 + 14, 0xA5)]
    (burned void).burnt void ∧
    Memory.stopsAt [] void (slotOffset 0 + 1, 0xFF) [(slotOffset 0 + 14, 0xA5)] ∧
    ¬Memory.stray [] (slotOffset 0 + 1, 0xFF) ∧
    Memory.stopsAt [(0x2FF1, 0xFF), (0x2FFE, 0x02)] void (slotOffset 0 + 14, 0xA5) [] ∧
    Memory.stray [(0x2FF1, 0xFF), (0x2FFE, 0x02)] (slotOffset 0 + 14, 0xA5) := by
  unfold Memory.burnt Memory.stray
  exact ⟨by decide +kernel, stops_first _ _ _ (by decide +kernel), by decide +kernel,
    stops_second _ _ _ _ (by decide +kernel) (by decide +kernel), by decide +kernel⟩

/-- SealAppliesPatch: the seal's pulse, a VERIFY that finds the seal standing, and the two moments. -/
theorem witness_SealAppliesPatch :
    let t : State :=
      { writingAt .verify [] 0 with
        array := [(0, 1), (1, 1), (3, 0x20), (4, 2), (5, 0x12), (6, 0x34), (0x2FFE, 0xA5)] }
    let u := after (.burnPulse 0xA5) (pausing sealing)
    sealing.resetAsserted = false ∧ sealing.grant = .writer ∧ sealing.writer = .seal ∧
    sealing.active = some (jobAt [(0x2FFE, 0xA5)] 0) ∧ (sealing.arrayAfterPulse 0x2FFE 0xA5).read 0x2FFE = 0xA5 ∧
    t.resetAsserted = false ∧ t.grant = .writer ∧ t.writer = .verify ∧ t.active = some (jobAt [] 0) ∧
    crc32 (t.array.readRange 0 7) = (jobAt [] 0).crc ∧ t.array.read (slotOffset 0 + 14) = 0xA5 ∧
    u.active.map ActiveJob.moment = some .sealed ∧
    (after (.burnPulse 0) u).active.map ActiveJob.moment = some .applied := by decide +kernel

/-- PatchApplies. -/
theorem witness_PatchApplies : ([twelve].map Action.key).Nodup ∧
    ∀ x ∈ [twelve], (descriptor? x.key).isSome = true := by decide +kernel

/-- VoidAndRevokeEnd, the void: its last byte succeeds, and fails at the fourth pulse; its seal holds a stray bit. -/
theorem witness_VoidEnds :
    let s := writingAt .voiding [(0x2FFE, 0xA5)] 3
    let t : State := { writingAt .voiding [(0x2FF1, 0xFF), (0x2FFE, 0xA5)] 0 with array := [(0x2FFE, 0x02)] }
    (s.resetAsserted = false ∧ s.writer = .voiding ∧ s.active = some (jobAt [(0x2FFE, 0xA5)] 3) ∧
      (jobAt [(0x2FFE, 0xA5)] 3).moment = .none ∧ (s.arrayAfterPulse 0x2FFE 0xA5).burnt [(0x2FFE, 0xA5)] ∧
      t.active = some (jobAt [(0x2FF1, 0xFF), (0x2FFE, 0xA5)] 0)) ∧
    (s.arrayAfterPulse 0x2FFE 0xA4).pulseFails 3 [(0x2FFE, 0xA5)] ∧
    (t.arrayAfterPulse 0x2FF1 0xFF).pulseFails 0 [(0x2FF1, 0xFF), (0x2FFE, 0xA5)] := by
  unfold Memory.burnt
  exact ⟨by decide +kernel, fails_fourth _ _ _ _ (by decide +kernel) (by decide),
    fails_later _ _ _ _ _ (by decide +kernel) (by decide +kernel)⟩

/-- VoidAndRevokeEnd, the revoke: the field reads FFh at once, some bits, or none, after the fourth pulse. -/
theorem witness_RevokeEnds :
    let s := revokingAt 3
    s.resetAsserted = false ∧ s.writer = .revoking ∧
    s.active.map ActiveJob.todo = some [(slotOffset 0 + 15, 0xFF)] ∧ s.active.map ActiveJob.moment = some .none ∧
    (s.arrayAfterPulse 0x2FFF 0xFF).read 0x2FFF = 0xFF ∧ (s.arrayAfterPulse 0x2FFF 0x10).read 0x2FFF ≠ 0 ∧
    (s.arrayAfterPulse 0x2FFF 0).read 0x2FFF = 0 ∧ 4 ≤ 3 + 1 := by decide +kernel

/-- JobsStart: a commit granted and held in PRECHECK (section 3.5, step 1), a commit with actions, and a revoke. -/
theorem witness_JobsStart :
    granted.resetAsserted = false ∧ granted.writer = .precheck ∧ granted.staging.port0.state = .burning ∧
    granted.active = some (ActiveJob.granted ⟨.port0, .commit, 1, true⟩) ∧
    (ActiveJob.granted ⟨.port0, .commit, 1, true⟩).moment = .granted ∧
    (after (.burnPulse 0) granted).active = writing.active ∧
    (after (.revoke .port0 9 1) (pausing sealed)).writer = .revoking ∧
    (⟨.port0, .commit, 1, true⟩ : Job).kind = .commit ∧
    (∀ x ∈ (staged.staging.get .port0).actions, (descriptor? x.key).isSome = true) ∧
    (staged.staging.get .port0).actions ≠ [] ∧ (staged.staging.get .port0).actions.length ≤ 24 ∧
    (⟨.port0, .revoke 1, 1, true⟩ : Job).kind = .revoke 1 ∧ 1 ≤ 1 := by decide +kernel

/-- GuardsGrantsForms: a key with its record, an action without a guard, GRANT_MAP of four bytes, a key's form. -/
theorem witness_GuardsGrantsForms :
    booted.table.find? (·.key = twelve.key) = some ⟨0x020, [0, 0], none, false, none, 0⟩ ∧
    twelve.guard = .none ∧ booted.activeValue 0x7F0 = [0x00, 0x0F, 0x7F, 0xFF] ∧
    ((descriptor? 0x7F3).map fun c => c.hasForm [5]) = some true := by decide +kernel

/-- ArbiterGrants: held by a run, held by a job, free with a REBUILD pending, with none waiting and with a job. -/
theorem witness_ArbiterGrants : rebuilding.grant = .replay ∧ (writing.grant = .writer ∧ writing.writer ≠ .idle) ∧
    (booted.grant = .free ∧ ({ booted with replay := .pending } : State).replay = .pending ∧
      booted.replay ≠ .pending ∧ booted.burnQueue = []) ∧
    ({ booted with burnQueue := [⟨.port0, .commit, 1, true⟩] } : State).burnQueue = ⟨.port0, .commit, 1, true⟩ :: [] := by
  decide +kernel

/-- RequestsDelivered: an idle port, a submitted one and an executing handler; a kind code that names none. -/
theorem witness_RequestsDelivered :
    let r := RequestKind.get.record 9 [0, 0x23]
    booted.window.window0.requestArea.length = 64 ∧ r.argLength = r.args.length ∧ r.args.length ≤ 60 ∧
    booted.awaits .port0 r = false ∧ booted.window.window0.state = .idle ∧
    booted.handler.port0.state = .idle ∧
    (writing.window.window0.state = .submitted ∧ writing.handler.port0.state = .executing ∧
      writing.window.window0.requestArea.length = 64 ∧ writing.awaits .port0 r = false ∧
      (writing.submitOnce .port0 r).awaits .port0 r = false ∧ writing.resetAsserted = false) ∧
    (requestKind? 0x7F).isNone = true ∧ booted.awaits .port2 (Record.make 0x7F 9 []) = false ∧
    booted.replay ≠ .startup ∧ booted.isDisabled .port0 = false := by decide +kernel

/-- AnswerHandedOver: each port, kept and abandoned, an idle handler, a request that waits, and a held read. -/
theorem witness_AnswerHandedOver :
    (∀ p ∈ ports, ∀ abandoned ∈ [false, true],
      ((answering p abandoned).handler.get p).state = .executing ∧
      ((answering p abandoned).handler.get p).service = .answered ⟨.empty, 3, []⟩ ∧
      ((answering p abandoned).handler.get p).abandoned = abandoned ∧
      (answering p abandoned).resetAsserted = false) ∧
    (booted.handler.get .port0).state = .idle ∧
    (let s := after (.go .window0) getWritten
     s.resetAsserted = false ∧ s.handler.port0.state = .executing ∧ s.handler.port0.service = .waiting ∧
     s.handler.port0.current = some (RequestKind.get.record 9 [0, 0x23])) ∧
    (let s := after (.journalRead .port0 9 0 1) rebuilding
     s.resetAsserted = false ∧ s.handler.port0.state = .executing ∧ s.handler.port0.service = .held) := by
  decide +kernel

/-- Every request statement's premise: on each port the record of each kind reaches its block. -/
theorem witness_takes : ∀ kind ∈ requestKinds, ∀ p ∈ ports,
    staged.resetAsserted = false ∧
    (staged.submitOnce p (kind.record 9 (sampleArgs kind))).awaits p (kind.record 9 (sampleArgs kind)) = true := by
  decide +kernel

/-- The premise of the request statements, in their own form. -/
theorem witness_takes_form (kind : RequestKind) (hk : kind ∈ requestKinds) (p : Port) (hp : p ∈ ports) :
    staged.takes p (kind.record 9 (sampleArgs kind)) (staged.submitOnce p (kind.record 9 (sampleArgs kind))) :=
  ⟨(witness_takes kind hk p hp).1, rfl, (witness_takes kind hk p hp).2⟩

/-- GetsAnswer: a run under way, a key outside the catalog, and a record of the table. -/
theorem witness_GetsAnswer : rebuilding.replay = .rebuilding ∧ descriptor? 0x7F5 = none ∧
    descriptor? 0x020 ≠ none ∧
    (staged.submitOnce .port0 (RequestKind.getDetail.record 9 [0, 0x20])).replay ≠ .rebuilding ∧
    (staged.submitOnce .port0 (RequestKind.getDetail.record 9 [0, 0x20])).table.find?
      (·.key = 0x020) = some ⟨0x020, [0, 0], none, false, none, 0⟩ := by decide +kernel

/-- JournalReadAnswers: a held read after and during a run, and none held. -/
theorem witness_JournalReadAnswers :
    let s := after (.journalRead .port0 9 0 1) rebuilding
    s.resetAsserted = false ∧ s.handler.port0.state = .executing ∧ s.handler.port0.service = .held ∧
    s.handler.port0.current = some (RequestKind.journalRead.record 9 (bytes16 0 ++ [1])) ∧
    s.grant = .replay ∧ ({ s with grant := .free } : State).grant ≠ .replay ∧
    booted.handler.port0.state = .idle := by decide +kernel

/-- SessionEnds: an open and a closed session. -/
theorem witness_SessionEnds : (staged.session.get .port0).isOpen = true ∧
    (staged.session.get .port1).isOpen = false := by decide +kernel

/-- WatchAnswers, UNWATCH: a CLOSED port, a range not held, the range held. -/
theorem witness_WatchAnswers : (booted.session.get .port0).isOpen = false ∧ (opened.session.get .port0).isOpen = true ∧
    (0, 1) ∉ (opened.session.get .port0).watches ∧
    (opened.session.get .port0).watches = [] ++ (0, 0xFFF) :: [] ∧ (0, 0xFFF) ∉ ([] : List (Nat × Nat)) := by
  decide +kernel

/-- NoticeArrives: a coalesced arrival behind a sent head, a marker, also one marked sent, room at 14, no room at 15. -/
theorem witness_NoticeArrives :
    let n : Notice := ⟨1, changed⟩
    let marked : Session := { sent.session.port2 with queue := [⟨1, .noticesLost 1⟩] }
    Notice.subject? ⟨0, changed⟩ ≠ none ∧ n.subject? = Notice.subject? ⟨0, changed⟩ ∧
    sent.session.port2.queue = [n] ++ [] ++ [] ∧
    ({ sent.session.port2 with queue := [n, n] } : Session).queue = [n] ++ [] ++ n :: [] ∧
    [n].length = (if sent.session.port2.headSent then 1 else 0) ∧
    Notice.subject? ⟨0, .rebuilt .port0⟩ = none ∧ marked.queue.any Notice.isMarker = true ∧
    (marked.headSent = true ∧ (∃ h ∈ marked.queue.head?, h.isMarker = true) ∧ marked.lateCount < 255) ∧
    (List.replicate 14 n).any Notice.isMarker = false ∧ (List.replicate 14 n).length ≤ 14 ∧
    14 < (List.replicate 15 n).length := by decide +kernel

/-- StageEdits: well-formed commands within the limits. -/
theorem witness_StageEdits : (Instr.stageAssign .port0 9 0x020 [0x12, 0x34] .none).wf = true ∧
    [(0x12 : Byte), 0x34].length + (guardOf .none).length ≤ 51 ∧
    (Instr.stageRetire .port0 9 0x020 .untouched).wf = true := by decide +kernel

/-- StageDropsClears: a lawful EMPTY list. -/
theorem witness_StageDropsClears : (opened.staging.get .port0).state = .empty ∧ (opened.staging.get .port0).lawful := by
  refine ⟨by decide +kernel, ?_⟩
  unfold StagingList.lawful
  decide +kernel

/-- OverlaySets and OverlayClearList: a well-formed command; keys in rising order. -/
theorem witness_OverlaySets : (Instr.overlaySet .port0 9 0x000 [0x55] 3 false).wf = true ∧
    (([overlay, { overlay with key := 1 }] : List OverlayRecord).map OverlayRecord.key).Pairwise (· < ·) ∧
    (staged.overlays.map OverlayRecord.key).Pairwise (· < ·) := by decide +kernel

/-- OverlaysAge: without and with a removal due, without and with an expiry of the acknowledgement timer due. -/
theorem witness_OverlaysAge : overlaid.resetAsserted = false ∧ (∀ o ∈ overlaid.overlays, o.due = false) ∧
    (overlaid.overlays.map OverlayRecord.key).Pairwise (· < ·) ∧
    overlaid.link.timer ≠ .running 0 ∧
    sent.resetAsserted = false ∧ (∀ o ∈ sent.overlays, o.due = false) ∧ sent.link.timer = .running 0 ∧
    ∃ o ∈ ({ opened with overlays := [{ overlay with due := true }] } : State).overlays, o.due = true := by
  decide +kernel

/-- GoTaken: from IDLE, in SUBMITTED and with the handler EXECUTING, at an I2C port; an SPI port not in a read. -/
theorem witness_GoTaken : booted.resetAsserted = false ∧ booted.window.window0.state ≠ .submitted ∧
    booted.handler.port0.state = .idle ∧ writing.window.window0.state = .submitted ∧
    writing.handler.port0.state = .executing ∧ strapTransport booted.window.window0.strap ≠ .spi ∧
    spiPort.window.window0.spi ≠ .reading := by decide +kernel

/-- ControlCodesTaken: a code that names none. -/
theorem witness_ControlCodesTaken : booted.resetAsserted = false ∧ (0xA0 : Byte) ≠ 0xA1 ∧ (0xA0 : Byte) ≠ 0xA2 ∧
    (0xA0 : Byte) ≠ 0xA7 := by decide +kernel

/-- WindowBytes: the ends of the request area, the offsets beside it, an SPI and an I2C strap, each phase of SPI. -/
theorem witness_WindowBytes : 0x10 ≤ (0x10#8).toNat ∧ (0x4F#8).toNat ≤ 0x4F ∧
    (0x0F#8 ≠ 0x01#8 ∧ 0x0F#8 ≠ 0x02#8 ∧ (0x0F#8).toNat < 0x10) ∧ 0x4F < (0x50#8).toNat ∧
    strapTransport booted.window.window0.strap ≠ .spi ∧ strapTransport spiPort.window.window0.strap = .spi ∧
    spiPort.window.window0.spi = .deselected ∧
    (after (.windowPointerSet .window0 0x10) spiPort).window.window0.spi = .writing ∧
    (after (.windowPointerSet .window0 0x81) spiPort).window.window0.spi = .reading := by decide +kernel

/-- ReqTaken: a repeat, a busy handler and a new request, in each state that takes a frame, and TX. -/
theorem witness_ReqTaken : booted.resetAsserted = false ∧ ([0, 0x23] : Bytes).length ≤ 60 ∧
    booted.link.state ∈ [LinkState.idle, .turn, .rx] ∧ sent.link.state ∈ [LinkState.idle, .turn, .rx] ∧
    (stored.handler.port2.stored.isSome = true ∧ stored.handler.port2.lastTag = 7) ∧
    (answering .port2 false).handler.port2.state = .executing ∧
    sending.resetAsserted = false ∧ sending.link.state ∉ [LinkState.idle, .turn, .rx] := by decide +kernel

/-- AckResetTaken: an ACK of the sent head, one of another tag, a closed port, and TX. -/
theorem witness_AckResetTaken : sent.resetAsserted = false ∧ sent.link.state ∈ [LinkState.idle, .turn, .rx] ∧
    (sent.session.get .port2).queue = ⟨1, changed⟩ :: [] ∧ (sent.session.get .port2).isOpen = true ∧
    (sent.session.get .port2).headSent = true ∧ (booted.session.get .port2).isOpen = false ∧
    sending.link.state ∉ [LinkState.idle, .turn, .rx] := by decide +kernel

/-- LineTaken: a short frame, an ignored NOTE, TX; a glitch, the ends of a bit's and of an end mark's range, the first
violation and the last; in RX off a byte boundary, and on it with a whole ACK. -/
theorem witness_LineTaken : (Instr.frameDiscarded [1, 2] .endMark).wf = true ∧
    (Instr.frameDiscarded (frameBytes .note 1 5 [0]) .endMark).wf = true ∧
    booted.link.state ∈ [LinkState.idle, .turn, .rx] ∧ sending.link.state ∉ [LinkState.idle, .turn, .rx] ∧
    (∀ ns ∈ [499, 500, 10999, 11000, 18999, 32000, 5000000], (Instr.preambleOrNoise ns).wf = true) ∧
    booted.link.state ≠ .rx ∧ (receiving [true]).link.state = .rx ∧
    (receiving [true]).link.rxBits.length % 8 ≠ 0 ∧
    readFrame (bytesOfBits (receiving ((frameBytes .ack 1 0 []).flatMap bitsOfByte)).link.rxBits) =
      some (.ack, 1, 0, []) := by decide +kernel

/-- LinkSends: in TURN with a pending response and its stored one, a BUSY, a NOTE to send and nothing to send; in TX
with each; elsewhere. -/
theorem witness_LinkSends :
    (let s := stored.setLink { booted.link with state := .turn, pending := some .response }
     s.resetAsserted = false ∧ s.link.state = .turn ∧ s.link.pending = some .response ∧
     s.handler.port2.stored = some ⟨.ok, 7, []⟩) ∧
    (let s := booted.setLink { booted.link with state := .turn, pending := some (.busy 9) }
     s.resetAsserted = false ∧ s.link.state = .turn ∧ s.link.pending = some (.busy 9)) ∧
    (let s := noticed.setLink { booted.link with state := .turn }
     s.resetAsserted = false ∧ s.link.state = .turn ∧ s.link.pending = none ∧
     s.session.port2.queue = ⟨1, changed⟩ :: [] ∧ s.session.port2.isOpen = true ∧
     s.session.port2.headSent = false) ∧
    (sent.resetAsserted = false ∧ sent.link.state = .turn ∧ sent.link.pending = none ∧
      sent.session.port2.headSent = true ∧ sent.link.timer ≠ .expired) ∧ booted.link.state ≠ .turn ∧
    (∀ sending ∈ [Sending.response, .busy 9, .note true, .note false],
      let s := booted.setLink { booted.link with state := .tx, sending := some sending }
      s.resetAsserted = false ∧ s.link.state = .tx ∧ s.link.sending = some sending) := by decide +kernel

/-- LinkLost: in IDLE, OFF and with the line held; an expiry due below and at the fourth send, and none due. -/
theorem witness_LinkLost : booted.resetAsserted = false ∧ booted.link.state = .idle ∧
    sent.link.timer = .running 0 ∧ sent.link.sendCount < 4 ∧
    4 ≤ ({ sent.link with sendCount := 4 } : Link).sendCount ∧ booted.link.timer ≠ .running 0 ∧
    (after .linkLoss booted).link.state = .heldLow := by decide +kernel

end Sys2Proof.Tests
end

section
/-! PROOF. The journal, the array and the directory: ENTRY_READ at its block (R41). -/

namespace Sys2Proof.Machine

/-! ### Two-byte fields -/

/-- A two-byte field is the number's high byte, then its low byte (R180). -/
theorem bytesOfNat_two (n : Nat) : bytesOfNat 2 n = [BitVec.ofNat 8 (n / 256), BitVec.ofNat 8 n] := by
  simp only [bytesOfNat, pow_one, pow_zero, Nat.div_one]

/-- The two bytes of a field carry the field's number (R180). -/
theorem number16_of_word (w : Word16) :
    number16 (BitVec.ofNat 8 (w.toNat / 256)) (BitVec.ofNat 8 w.toNat) = w.toNat := by
  have hw := w.isLt
  simp only [number16, BitVec.toNat_ofNat]
  omega

/-- One argument of two bytes, written and read back (R182). -/
theorem readWordArg_bytes16 (f : Nat → Request) (w : Word16) :
    readWordArg f (bytes16 w) = some (f w.toNat) := by
  rw [bytes16, bytesOfNat_two, readWordArg, number16_of_word]

/-! ### The Entry Index -/

/-- The index record found for a sequence number carries that number (R37). -/
theorem State.entry?_seq {s : State} {seq : Nat} {r : IndexRecord} (h : s.entry? seq = some r) :
    r.seq = seq := by
  simpa using List.find?_some h

/-! ### ENTRY_READ -/

/-- The record of an ENTRY_READ asks for the entry of its sequence number (R182). -/
theorem entryRead_request? (tag : Byte) (seq : Word16) :
    (RequestKind.entryRead.record tag (bytes16 seq)).request? = some (.entryRead seq.toNat) := by
  have hlen : (bytes16 seq).length ≤ Config.maxArgs := by
    simp [bytes16, bytesOfNat_two, Config.maxArgs]
  rw [RequestKind.record_request? _ _ _ hlen]
  exact readWordArg_bytes16 .entryRead seq

theorem serveEntryRead_of_range {s : State} {p : Port} {seq : Nat} (h : seq = 0 ∨ 256 < seq) :
    serveEntryRead s p seq = refuse s .range :=
  if_pos h

theorem serveEntryRead_of_none {s : State} {p : Port} {seq : Nat} (h : ¬(seq = 0 ∨ 256 < seq))
    (he : s.entry? seq = none) : serveEntryRead s p seq = refuse s .notFound := by
  rw [serveEntryRead, if_neg h, he]

theorem serveEntryRead_of_some {s : State} {p : Port} {seq : Nat} {r : IndexRecord}
    (h : ¬(seq = 0 ∨ 256 < seq)) (he : s.entry? seq = some r) :
    serveEntryRead s p seq = (s, .answer .ok r.bytes) := by
  rw [serveEntryRead, if_neg h, he]

/-- An ENTRY_READ that reaches its block, where the block only answers: the answer is all that changes (R144). -/
theorem exec_entryRead_answers {s d : State} {p : Port} {tag : Byte} {seq : Word16} {status : Status}
    {data : Bytes} (h : s.takes p (RequestKind.entryRead.record tag (bytes16 seq)) d)
    (hserve : serveEntryRead d p seq.toNat = (d, .answer status data)) :
    exec (.entryRead p tag seq) s = .next (d.answers p tag status data) := by
  have hd : d.serve p (.entryRead seq.toNat) = (d, .answer status data) := hserve
  calc exec (.entryRead p tag seq) s
      = execRequest p (RequestKind.entryRead.record tag (bytes16 seq)) s := rfl
    _ = .next (((d.serve p (.entryRead seq.toNat)).1.setService p
          ((d.serve p (.entryRead seq.toNat)).2.service tag)).settle) :=
        execRequest_takes h (entryRead_request? tag seq)
    _ = .next (d.answers p tag status data) := by rw [hd]; rfl

/-- Settles O40: the record is carried to the block, whose tests of R41 in their order give the answer. -/
theorem entryReadAnswers : Obligations.EntryReadAnswers := by
  refine ⟨rfl, fun s d p tag seq h => ?_⟩
  split
  next hrange => exact exec_entryRead_answers h (serveEntryRead_of_range hrange)
  next hrange =>
    split
    next hnone => exact exec_entryRead_answers h (serveEntryRead_of_none hrange hnone)
    next r hsome =>
      have hseq : r.seq = seq.toNat := State.entry?_seq hsome
      rw [exec_entryRead_answers h (serveEntryRead_of_some hrange hsome), IndexRecord.bytes, hseq]
      rfl

end Sys2Proof.Machine
end

section
/-! PROOF. The Staging Lists: the requests that edit, drop, clear and list their actions (R50 to R56), and ABORT
(R59). -/

namespace Sys2Proof.Machine

/-! ### From the block's outcome to the answer -/

/-- What a block makes of a request of port `p`, with its reply made the answer under `tag` (R144). -/
def carried (p : Port) (tag : Byte) (outcome : State × Reply) : State :=
  (outcome.1.setService p (outcome.2.service tag)).settle

theorem carried_answer (p : Port) (tag : Byte) (t : State) (status : Status) (data : Bytes) :
    carried p tag (t, .answer status data) = t.answers p tag status data := rfl

theorem carried_refuse (p : Port) (tag : Byte) (s : State) (status : Status) :
    carried p tag (refuse s status) = s.answers p tag status [] := rfl

/-- A request command that reaches its block ends in what the block makes of it. -/
theorem execRequest_carried {s d t : State} {p : Port} {kind : RequestKind} {tag : Byte} {args : Bytes}
    {q : Request} (h : s.takes p (kind.record tag args) d) (hq : (kind.record tag args).request? = some q)
    (ht : carried p tag (d.serve p q) = t) : execRequest p (kind.record tag args) s = .next t := by
  subst ht
  exact execRequest_takes h hq

/-! ### The records' arguments, written and read back (R182) -/

theorem wordRecord_request? (kind : RequestKind) (tag : Byte) (w : Word16) :
    (kind.record tag (bytes16 w)).request? = readArgs kind (bytes16 w) :=
  kind.record_request? tag _ (by simp [bytes16, bytesOfNat_two, Config.maxArgs])

theorem noArgsRecord_request? (kind : RequestKind) (tag : Byte) :
    (kind.record tag []).request? = readArgs kind [] :=
  kind.record_request? tag [] (Nat.zero_le _)

/-- A length byte declares its value's length, up to the 255 that it can hold. -/
theorem lengthByte_toNat {value : Bytes} (h : value.length ≤ 0xFF) :
    (BitVec.ofNat 8 value.length).toNat = value.length := by
  rw [BitVec.toNat_ofNat]
  omega

theorem readGuard_guardField {guard : GuardArg} (h : guard.fits = true) :
    readGuard (guardField guard) = some (guardOf guard) := by
  cases guard with
  | none => rfl
  | untouched => rfl
  | equals value =>
    have hv : value.length ≤ 0xFF := by simpa [GuardArg.fits] using h
    exact if_pos ⟨rfl, (lengthByte_toNat hv).symm⟩

theorem readStageRetire_args {guard : GuardArg} (key : Word16) (h : guard.fits = true) :
    readStageRetire (stageRetireArgs key guard) = some (.stageRetire key.toNat (guardOf guard)) := by
  simp only [stageRetireArgs, bytes16, bytesOfNat_two, List.cons_append, List.nil_append, readStageRetire,
    readGuard_guardField h, number16_of_word]

theorem readStageAssign_args {value : Bytes} {guard : GuardArg} (key : Word16) (hv : value.length ≤ 0xFF)
    (hg : guard.fits = true) (hsum : value.length + (guardOf guard).length ≤ 51) :
    readStageAssign (stageAssignArgs key value guard) =
      some (.stageAssign key.toNat value (guardOf guard)) := by
  have hroom : ¬(value ++ guardField guard).length < value.length := by simp
  simp only [stageAssignArgs, bytes16, bytesOfNat_two, valueField, List.cons_append, List.nil_append,
    readStageAssign, lengthByte_toNat hv, if_neg hroom, List.drop_left, List.take_left,
    readGuard_guardField hg, if_pos hsum, number16_of_word]

theorem stageAssign_request? {p : Port} {tag : Byte} {key : Word16} {value : Bytes} {guard : GuardArg}
    (hwf : (Instr.stageAssign p tag key value guard).wf = true)
    (hsum : value.length + (guardOf guard).length ≤ 51) :
    (RequestKind.stageAssign.record tag (stageAssignArgs key value guard)).request? =
      some (.stageAssign key.toNat value (guardOf guard)) := by
  rw [RequestKind.record_request? _ _ _ (Laws.Wf.stageAssign p tag key value guard hwf _ rfl)]
  simp only [Instr.wf, Bool.and_eq_true, decide_eq_true_eq] at hwf
  obtain ⟨⟨hv, hg⟩, -⟩ := hwf
  exact readStageAssign_args key hv hg hsum

theorem stageRetire_request? {p : Port} {tag : Byte} {key : Word16} {guard : GuardArg}
    (hwf : (Instr.stageRetire p tag key guard).wf = true) :
    (RequestKind.stageRetire.record tag (stageRetireArgs key guard)).request? =
      some (.stageRetire key.toNat (guardOf guard)) := by
  rw [RequestKind.record_request? _ _ _ (Laws.Wf.stageRetire p tag key guard hwf _ rfl)]
  simp only [Instr.wf, Bool.and_eq_true] at hwf
  exact readStageRetire_args key hwf.1

/-! ### The action list -/

/-- The encoded body length, as the sum that R47 gives. -/
theorem encodedLength_eq (actions : List Action) :
    encodedLength actions = 1 + (actions.map fun a => 4 + a.op.value.length).sum := by
  suffices h : ∀ n, actions.foldl (fun n a => n + (4 + a.op.value.length)) n =
      n + (actions.map fun a => 4 + a.op.value.length).sum from h 1
  induction actions with
  | nil => simp
  | cons a rest ih => simp [ih, Nat.add_assoc]

/-- Check 8 of R50 refuses a list of more than 24 actions or 512 encoded bytes. -/
theorem fitsList_eq_false (actions : List Action) : fitsList actions = false ↔
    24 < actions.length ∨ 512 < 1 + (actions.map fun a => 4 + a.op.value.length).sum := by
  rw [fitsList, encodedLength_eq, Bool.and_eq_false_iff, decide_eq_false_iff_not, decide_eq_false_iff_not,
    Nat.not_le, Nat.not_le]

theorem stages_eq_false (actions : List Action) (key : Nat) :
    stages actions key = false ↔ ∀ a ∈ actions, a.key ≠ key := by
  simp [stages]

/-- An action put in the place of the one on its key, written out: that key, and that one's pin flag (R51). -/
theorem stageAction_eq (actions : List Action) (key : Nat) (op : ActionOp) (guard : Guard) :
    stageAction actions key op guard =
      if actions.any (·.key = key) then
        actions.map fun a => if a.key = key then ⟨key, op, a.pin, guard⟩ else a
      else actions ++ [⟨key, op, false, guard⟩] := by
  have hsame : (fun a : Action => if a.key = key then { a with op := op, guard := guard } else a) =
      fun a => if a.key = key then ⟨key, op, a.pin, guard⟩ else a := by
    funext a
    split
    next h => rw [h]
    next => rfl
  rw [stageAction, hsame, stages]

/-- A list that holds an action on some key still has actions after each is changed. -/
theorem map_ne_nil_of_stages {actions : List Action} {key : Nat} (f : Action → Action)
    (h : stages actions key = true) : actions.map f ≠ [] := by
  intro hnil
  rw [List.map_eq_nil_iff] at hnil
  simp [hnil, stages] at h

theorem stageAction_ne_nil (actions : List Action) (key : Nat) (op : ActionOp) (guard : Guard) :
    stageAction actions key op guard ≠ [] := by
  unfold stageAction
  split
  next h => exact map_ne_nil_of_stages _ h
  next => simp

theorem stagePinFlag_ne_nil (actions : List Action) (key : Nat) : stagePinFlag actions key ≠ [] := by
  unfold stagePinFlag
  split
  next h => exact map_ne_nil_of_stages _ h
  next => simp

theorem listOf_of_ne_nil {actions : List Action} (h : actions ≠ []) : listOf actions = ⟨.building, actions⟩ := by
  rw [listOf, if_neg h]

/-! ### The checks of R50 -/

/-- Checks 1 and 2: the session, then the list's state. -/
theorem stagingRefusal_eq (s : State) (p : Port) :
    stagingRefusal s p =
      if (s.session.get p).isOpen = false then some .noSession
      else if (s.staging.get p).state = .queued ∨ (s.staging.get p).state = .burning then some .busy
      else none := by
  unfold stagingRefusal
  cases (s.session.get p).isOpen <;> cases (s.staging.get p).state <;> rfl

/-- A request whose block refuses what checks 1 and 2 refuse: it ends in these refusals, or in what its further
tests give. -/
theorem carried_of_checked {s t : State} {p : Port} {tag : Byte} {outcome : State × Reply}
    (hrefused : ∀ status, stagingRefusal s p = some status → outcome = refuse s status)
    (hpassed : stagingRefusal s p = none → carried p tag outcome = t) :
    carried p tag outcome =
      if (s.session.get p).isOpen = false then s.answers p tag .noSession []
      else if (s.staging.get p).state = .queued ∨ (s.staging.get p).state = .burning then
        s.answers p tag .busy []
      else t := by
  rw [stagingRefusal_eq] at hrefused hpassed
  split
  next hclosed => rw [hrefused _ (if_pos hclosed), carried_refuse]
  next hopen =>
    rw [if_neg hopen] at hrefused hpassed
    split
    next hbusy => rw [hrefused _ (if_pos hbusy), carried_refuse]
    next hfree => exact hpassed (if_neg hfree)

/-- Checks 6 to 8, and the list they let in: BUILDING, since it holds an action (R48). -/
theorem carried_stageChange {s : State} {p : Port} {tag : Byte} {key : Nat} {c : Descriptor}
    {actions : List Action} (hkey : descriptor? key = some c) (hne : actions ≠ []) :
    carried p tag (stageChange s p c actions) =
      if s.holdsClass p c.keyClass = false then s.answers p tag .denied []
      else if s.isPinned key = true then s.answers p tag .pinned []
      else if 24 < actions.length ∨ 512 < 1 + (actions.map fun a => 4 + a.op.value.length).sum then
        s.answers p tag .limit []
      else (s.setStaging p ⟨.building, actions⟩).answers p tag .ok [] := by
  simp only [stageChange, descriptor?_key hkey, Bool.not_eq_true', fitsList_eq_false, listOf_of_ne_nil hne,
    apply_ite (carried p tag), carried_refuse, carried_answer]

/-! ### The requests that put an action into the list -/

/-- STAGE_ASSIGN past checks 1 to 3: form and range, then the checks every change passes. -/
theorem carried_stageAssign_of_key {s : State} {p : Port} {tag : Byte} {key : Nat} {value : Bytes}
    {guard : Guard} {c : Descriptor} (hpass : stagingRefusal s p = none) (hkey : descriptor? key = some c) :
    carried p tag (serveStageAssign s p key value guard) =
      if (c.hasForm value && guard.hasForm c) = false then s.answers p tag .badLength []
      else if c.inRange value = false then s.answers p tag .range []
      else carried p tag (stageChange s p c (stageAction (s.staging.get p).actions key (.assign value) guard)) := by
  simp only [serveStageAssign, hpass, hkey, Bool.not_eq_true', apply_ite (carried p tag), carried_refuse]

/-- STAGE_RETIRE past checks 1 to 3: the guard's form, then the checks every change passes. -/
theorem carried_stageRetire_of_key {s : State} {p : Port} {tag : Byte} {key : Nat}
    {guard : Guard} {c : Descriptor} (hpass : stagingRefusal s p = none) (hkey : descriptor? key = some c) :
    carried p tag (serveStageRetire s p key guard) =
      if guard.hasForm c = false then s.answers p tag .badLength []
      else carried p tag (stageChange s p c (stageAction (s.staging.get p).actions key .retire guard)) := by
  simp only [serveStageRetire, hpass, hkey, Bool.not_eq_true', apply_ite (carried p tag), carried_refuse]

/-- Settles O46: checks 1 and 2, check 3 on the key, the request's own tests of form and range, and checks 6 to 8
with the list that they let in. -/
theorem stageEdits : Obligations.StageEdits := by
  refine ⟨⟨fun s d p tag key value guard hwf hsum h => ?_, fun s d p tag key guard hwf h => ?_⟩,
    fun s d p tag key h => ?_⟩
  · refine execRequest_carried h (stageAssign_request? hwf hsum) ?_
    refine carried_of_checked (fun status hr => by rw [State.serve, serveStageAssign, hr]) fun hpass => ?_
    cases hkey : descriptor? key.toNat with
    | none => simp only [State.serve, serveStageAssign, hpass, hkey, carried_refuse]
    | some c =>
      rw [State.serve, carried_stageAssign_of_key hpass hkey, carried_stageChange hkey (stageAction_ne_nil _ _ _ _),
        stageAction_eq]
  · refine execRequest_carried h (stageRetire_request? hwf) ?_
    refine carried_of_checked (fun status hr => by rw [State.serve, serveStageRetire, hr]) fun hpass => ?_
    cases hkey : descriptor? key.toNat with
    | none => simp only [State.serve, serveStageRetire, hpass, hkey, carried_refuse]
    | some c =>
      rw [State.serve, carried_stageRetire_of_key hpass hkey, carried_stageChange hkey (stageAction_ne_nil _ _ _ _),
        stageAction_eq]
      rfl
  · have hq := (wordRecord_request? .stagePin tag key).trans (readWordArg_bytes16 .stagePin key)
    refine execRequest_carried h hq (carried_of_checked
      (fun status hr => by rw [State.serve, serveStagePin, hr]) fun hpass => ?_)
    cases hkey : descriptor? key.toNat with
    | none => simp only [State.serve, serveStagePin, hpass, hkey, carried_refuse]
    | some c =>
      simp only [State.serve, serveStagePin, hpass, hkey]
      exact carried_stageChange hkey (stagePinFlag_ne_nil _ _)

/-! ### The requests that take actions out of the list -/

/-- STAGE_DROP past checks 1 and 2 (R54): an unknown key, a key without an action, or the list without its action. -/
theorem carried_stageDrop_of_passed {s : State} {p : Port} {tag : Byte} {key : Nat}
    (hpass : stagingRefusal s p = none) :
    carried p tag (serveStageDrop s p key) =
      if descriptor? key = none then s.answers p tag .unknownKey []
      else if ∀ a ∈ (s.staging.get p).actions, a.key ≠ key then s.answers p tag .notFound []
      else (s.setStaging p (listOf ((s.staging.get p).actions.filter (·.key ≠ key)))).answers p tag .ok [] := by
  simp only [serveStageDrop, hpass, Option.isNone_iff_eq_none, Bool.not_eq_true', stages_eq_false,
    apply_ite (carried p tag), carried_refuse, carried_answer]

/-- A lawful EMPTY list holds no action, so clearing it changes nothing. -/
theorem setStaging_empty_of_lawful {s : State} {p : Port} (hstate : (s.staging.get p).state = .empty)
    (hlawful : (s.staging.get p).lawful) : s.setStaging p ⟨.empty, []⟩ = s := by
  obtain ⟨-, -, -, hnone⟩ := hlawful
  have hl : (⟨.empty, []⟩ : StagingList) = s.staging.get p := by rw [← hstate, ← hnone hstate]
  rw [hl, State.setStaging, PerPort.set_get]

/-- Settles O47: checks 1 and 2, then the tests of R54 in their order; R55 has none further. -/
theorem stageDropsClears : Obligations.StageDropsClears := by
  refine ⟨fun s d p tag key h => ?_, fun s d p tag h => ⟨?_, setStaging_empty_of_lawful⟩⟩
  · have hq := (wordRecord_request? .stageDrop tag key).trans (readWordArg_bytes16 .stageDrop key)
    exact execRequest_carried h hq (carried_of_checked
      (fun status hr => by rw [State.serve, serveStageDrop, hr]) carried_stageDrop_of_passed)
  · exact execRequest_carried h (noArgsRecord_request? .stageClear tag) (carried_of_checked
      (fun status hr => by rw [State.serve, serveStageClear, hr])
      fun hpass => by rw [State.serve, serveStageClear, hpass]; rfl)

/-! ### STAGE_LIST and ABORT -/

/-- The data of STAGE_LIST, field by field (R56, R182). -/
theorem stageListData_eq (actions : List Action) (a : Action) :
    stageListData actions a =
      BitVec.ofNat 8 actions.length ::
        bytesOfNat 2 (1 + (actions.map fun x => 4 + x.op.value.length).sum) ++
        bytesOfNat 2 a.key ++ [BitVec.ofNat 8 (a.op.code + if a.pin then 0x80 else 0)] ++
        valueField a.op.value ++ a.guard.bytes := by
  simp only [stageListData, encodedLength_eq, Action.opByte, byteOf, field16, List.append_assoc,
    List.cons_append, List.nil_append]

/-- ABORT's tests in order (R59): the session, then where the port's commit stands. -/
theorem carried_abort (s : State) (p : Port) (tag : Byte) :
    carried p tag (serveAbort s p) =
      if (s.session.get p).isOpen = false then s.answers p tag .noSession []
      else if (s.staging.get p).state = .queued then
        (((s.recordWithdrawn p (s.queuedGeneration p)).withoutJobs p).setStaging p
          ⟨.building, (s.staging.get p).actions⟩).answers p tag .ok []
      else if (s.staging.get p).state = .burning then s.answers p tag .tooLate []
      else s.answers p tag .notFound [] := by
  unfold serveAbort
  cases (s.session.get p).isOpen
  case false => rfl
  case true => cases (s.staging.get p).state <;> rfl

/-- Settles O48: the codes and values of the operations, then the blocks' tests in their order. -/
theorem stageListAndAbort : Obligations.StageListAndAbort := by
  refine ⟨⟨fun v => ⟨rfl, rfl⟩, rfl, rfl, rfl, rfl⟩, fun s d p tag index h => ?_, fun s d p tag h => ?_⟩
  · have hq : (RequestKind.stageList.record tag [index]).request? = some (.stageList index.toNat) :=
      RequestKind.record_request? _ _ _ (by simp [Config.maxArgs])
    refine execRequest_carried h hq (carried_of_checked
      (fun status hr => by rw [State.serve, serveStageList, hr]) fun hpass => ?_)
    cases hat : (d.staging.get p).actions[index.toNat]? with
    | none => simp only [State.serve, serveStageList, hpass, hat, carried_refuse]
    | some a =>
      simp only [State.serve, serveStageList, hpass, hat, carried_answer, stageListData_eq]
      cases hguard : a.guard <;> rfl
  · exact execRequest_carried h (noArgsRecord_request? .abort tag) (carried_abort d p tag)

end Sys2Proof.Machine
end

section
/-! PROOF. The Overlay Table: OVERLAY_SET through the tests of Table 6-1 to the record laid in key order (R107, R109,
R110). -/

namespace Sys2Proof.Machine

/-! ### The arguments of OVERLAY_SET, written and read back (R182) -/

theorem readFlag_flagByte (b : Bool) : readFlag (flagByte b) = some b := by
  cases b <;> rfl

theorem readOverlaySet_args {value : Bytes} (key lifetime : Word16) (bound : Bool) (hv : value.length ≤ 0xFF) :
    readOverlaySet (overlaySetArgs key value lifetime bound) =
      some (.overlaySet key.toNat value lifetime.toNat bound) := by
  have hroom : ¬(value ++ (bytes16 lifetime ++ [flagByte bound])).length < value.length := by simp
  simp only [bytes16, bytesOfNat_two, List.cons_append, List.nil_append] at hroom
  simp only [overlaySetArgs, bytes16, bytesOfNat_two, valueField, List.cons_append, List.nil_append,
    List.append_assoc, readOverlaySet, lengthByte_toNat hv, if_neg hroom, List.drop_left, List.take_left,
    readFlag_flagByte, number16_of_word]

theorem value_length_le_overlaySetArgs (key : Word16) (value : Bytes) (lifetime : Word16) (bound : Bool) :
    value.length ≤ (overlaySetArgs key value lifetime bound).length := by
  simp only [overlaySetArgs, valueField, List.length_append, List.length_cons]
  omega

theorem overlaySet_request? {p : Port} {tag : Byte} {key lifetime : Word16} {value : Bytes} {bound : Bool}
    (hwf : (Instr.overlaySet p tag key value lifetime bound).wf = true) :
    (RequestKind.overlaySet.record tag (overlaySetArgs key value lifetime bound)).request? =
      some (.overlaySet key.toNat value lifetime.toNat bound) := by
  have hfits : (overlaySetArgs key value lifetime bound).length ≤ 60 :=
    Laws.Wf.overlaySet p tag key value lifetime bound hwf _ rfl
  rw [RequestKind.record_request? _ _ _ hfits]
  have hvalue := value_length_le_overlaySetArgs key value lifetime bound
  exact readOverlaySet_args key lifetime bound (by omega)

/-! ### A record laid in key order -/

theorem insertOverlay_of_lt {o x : OverlayRecord} (rest : List OverlayRecord) (h : x.key < o.key) :
    insertOverlay o (x :: rest) = x :: insertOverlay o rest :=
  if_pos h

theorem insertOverlay_of_eq {o x : OverlayRecord} (rest : List OverlayRecord) (h : x.key = o.key) :
    insertOverlay o (x :: rest) = o :: rest := by
  rw [insertOverlay, if_neg (by omega), if_pos h]

theorem insertOverlay_of_gt {o x : OverlayRecord} (rest : List OverlayRecord) (h : o.key < x.key) :
    insertOverlay o (x :: rest) = o :: x :: rest := by
  rw [insertOverlay, if_neg (by omega), if_neg (by omega)]

/-- The record laid is the one found on its key, whatever the order of the others. -/
theorem find?_insertOverlay (o : OverlayRecord) (overlays : List OverlayRecord) :
    (insertOverlay o overlays).find? (·.key = o.key) = some o := by
  induction overlays with
  | nil => simp [insertOverlay]
  | cons x rest ih =>
    rcases lt_trichotomy x.key o.key with hlt | heq | hgt
    · rw [insertOverlay_of_lt rest hlt, List.find?_cons_of_neg (by simpa using hlt.ne), ih]
    · rw [insertOverlay_of_eq rest heq]
      simp
    · rw [insertOverlay_of_gt rest hgt]
      simp

/-- In a table of rising keys the record laid stands in place of the one on its key; the others stay (R107). -/
theorem mem_insertOverlay {o x : OverlayRecord} {overlays : List OverlayRecord}
    (hrising : (overlays.map OverlayRecord.key).Pairwise (· < ·)) :
    x ∈ insertOverlay o overlays ↔ x = o ∨ x ∈ overlays ∧ x.key ≠ o.key := by
  induction overlays with
  | nil => simp [insertOverlay]
  | cons y rest ih =>
    rw [List.map_cons, List.pairwise_cons, List.forall_mem_map] at hrising
    obtain ⟨hfirst, hrest⟩ := hrising
    rcases lt_trichotomy y.key o.key with hlt | heq | hgt
    · have hy : x = y → x.key ≠ o.key := fun h => h ▸ hlt.ne
      rw [insertOverlay_of_lt rest hlt, List.mem_cons, List.mem_cons, ih hrest]
      tauto
    · have hy : x = y → x.key = o.key := fun h => h ▸ heq
      have hr : x ∈ rest → x.key ≠ o.key := fun h => heq ▸ (hfirst x h).ne'
      rw [insertOverlay_of_eq rest heq, List.mem_cons, List.mem_cons]
      tauto
    · have hall : x ∈ y :: rest → x.key ≠ o.key := by
        rw [List.mem_cons]
        rintro (rfl | h)
        · exact hgt.ne'
        · exact (hgt.trans (hfirst x h)).ne'
      rw [insertOverlay_of_gt rest hgt, List.mem_cons]
      tauto

theorem insertOverlay_rising (o : OverlayRecord) {overlays : List OverlayRecord}
    (hrising : (overlays.map OverlayRecord.key).Pairwise (· < ·)) :
    ((insertOverlay o overlays).map OverlayRecord.key).Pairwise (· < ·) := by
  induction overlays with
  | nil => simp [insertOverlay]
  | cons x rest ih =>
    have hwhole := hrising
    rw [List.map_cons, List.pairwise_cons, List.forall_mem_map] at hrising
    obtain ⟨hfirst, hrest⟩ := hrising
    rcases lt_trichotomy x.key o.key with hlt | heq | hgt
    · rw [insertOverlay_of_lt rest hlt, List.map_cons, List.pairwise_cons, List.forall_mem_map]
      refine ⟨fun y hy => ?_, ih hrest⟩
      obtain rfl | ⟨hmem, -⟩ := (mem_insertOverlay hrest).mp hy
      · exact hlt
      · exact hfirst y hmem
    · rwa [insertOverlay_of_eq rest heq, List.map_cons, ← heq]
    · rw [insertOverlay_of_gt rest hgt, List.map_cons, List.pairwise_cons, List.forall_mem_map]
      refine ⟨fun y hy => ?_, hwhole⟩
      obtain rfl | hmem := List.mem_cons.mp hy
      · exact hgt
      · exact hgt.trans (hfirst y hmem)

/-! ### The tests of Table 6-1 -/

/-- Test 9: a cap in force refuses a lifetime without end and one above the cap (R11). -/
theorem acceptsLifetime_eq_false (cap : Nat) (lifetime : Word16) :
    acceptsLifetime cap lifetime.toNat = false ↔ cap ≠ 0 ∧ (lifetime = 0 ∨ cap < lifetime.toNat) := by
  have hzero : lifetime = 0 ↔ lifetime.toNat = 0 := BitVec.toNat_inj.symm
  rw [hzero]
  simp only [acceptsLifetime, Bool.or_eq_false_iff, Bool.and_eq_false_iff, decide_eq_false_iff_not]
  omega

/-- Tests 10 and 11, in their order. -/
theorem overlayRoomRefusal_eq (s : State) (p : Port) (key : Nat) :
    overlayRoomRefusal s p key =
      if ∃ o ∈ s.overlay? key, o.ownerPort ≠ p then some .owned
      else if s.overlay? key = none ∧ 16 ≤ s.overlays.length then some .limit
      else none := by
  unfold overlayRoomRefusal
  cases s.overlay? key with
  | none =>
    have hroom : 16 ≤ s.overlays.length ↔ ¬s.overlays.length < Config.maxOverlays := Nat.not_lt.symm
    simp only [Option.not_mem_none, false_and, exists_false, if_false, true_and, hroom, ite_not]
  | some o =>
    simp only [Option.mem_some_iff, exists_eq_left', ite_not, reduceCtorEq, false_and, if_false]

/-! ### The overlay laid, and its report -/

/-- The record that an accepted OVERLAY_SET of port `p` lays (R110). -/
def State.newOverlay (s : State) (p : Port) (key : Nat) (value : Bytes) (lifetime : Word16) (bound : Bool) :
    OverlayRecord :=
  { key := key, value := value, ownerPort := p, ownerGeneration := (s.session.get p).generation,
    bound := bound, remaining := if lifetime = 0 then none else some lifetime.toNat, due := false }

/-- With an overlay laid on a key, its value is the key's effective value (R19). -/
theorem effectiveValue_insertOverlay (s : State) (o : OverlayRecord) :
    ({ s with overlays := insertOverlay o s.overlays } : State).effectiveValue o.key = o.value := by
  simp only [State.effectiveValue, State.overlay?, find?_insertOverlay]

/-- The overlay change, with one report where the effective value changes and none of the pending layer (R23). -/
theorem setOverlay_eq (s : State) (p : Port) (key : Nat) (value : Bytes) (lifetime : Word16) (bound : Bool) :
    s.setOverlay p key value lifetime.toNat bound =
      ({ s with overlays := insertOverlay (s.newOverlay p key value lifetime bound) s.overlays }).sendReports
        (if s.effectiveValue key = value then [] else [⟨key, .effective, .overlaySet, p, none⟩]) := by
  have hzero : lifetime.toNat = 0 ↔ lifetime = 0 := BitVec.toNat_inj (y := 0)
  have heffective := effectiveValue_insertOverlay s (s.newOverlay p key value lifetime bound)
  have hpending (overlays : List OverlayRecord) :
      ({ s with overlays := overlays } : State).pendingValue key = s.pendingValue key := rfl
  simp only [State.newOverlay] at heffective
  simp only [State.setOverlay, State.newOverlay, keyReports, hzero, heffective, hpending, if_true,
    List.append_nil]

/-! ### OVERLAY_SET -/

theorem serveOverlaySet_of_closed {s : State} {p : Port} {key lifetime : Nat} {value : Bytes} {bound : Bool}
    (hclosed : (s.session.get p).isOpen = false) :
    serveOverlaySet s p key value lifetime bound = refuse s .noSession := by
  rw [serveOverlaySet, hclosed]
  rfl

theorem serveOverlaySet_of_rebuilding {s : State} {p : Port} {key lifetime : Nat} {value : Bytes} {bound : Bool}
    (hopen : (s.session.get p).isOpen = true) (hruns : s.replay = .rebuilding) :
    serveOverlaySet s p key value lifetime bound = refuse s .rebuilding := by
  rw [serveOverlaySet, State.rebuildRuns, hopen, hruns]
  rfl

theorem serveOverlaySet_of_unknownKey {s : State} {p : Port} {key lifetime : Nat} {value : Bytes} {bound : Bool}
    (hopen : (s.session.get p).isOpen = true) (hruns : s.replay ≠ .rebuilding) (hkey : descriptor? key = none) :
    serveOverlaySet s p key value lifetime bound = refuse s .unknownKey := by
  rw [serveOverlaySet, State.rebuildRuns, hopen, decide_eq_false hruns, hkey]
  rfl

/-- OVERLAY_SET past tests 1 to 3: the tests on the key's descriptor, then lifetime, owner and room, then the
overlay laid. -/
theorem carried_overlaySet_of_key {s : State} {p : Port} {tag : Byte} {key : Nat} {value : Bytes}
    {lifetime : Word16} {bound : Bool} {c : Descriptor} (hopen : (s.session.get p).isOpen = true)
    (hruns : s.replay ≠ .rebuilding) (hkey : descriptor? key = some c) :
    carried p tag (serveOverlaySet s p key value lifetime.toNat bound) =
      if c.overlayPermitted = false then s.answers p tag .notAllowed []
      else if c.hasForm value = false then s.answers p tag .badLength []
      else if c.inRange value = false then s.answers p tag .range []
      else if s.holdsClass p c.keyClass = false then s.answers p tag .denied []
      else if s.isPinned key = true then s.answers p tag .pinned []
      else if s.activeNumber keyOverlayCap ≠ 0 ∧
          (lifetime = 0 ∨ s.activeNumber keyOverlayCap < lifetime.toNat) then s.answers p tag .range []
      else if ∃ o ∈ s.overlay? key, o.ownerPort ≠ p then s.answers p tag .owned []
      else if s.overlay? key = none ∧ 16 ≤ s.overlays.length then s.answers p tag .limit []
      else (s.setOverlay p key value lifetime.toNat bound).answers p tag .ok
        [flagByte (s.overlay? key).isSome] := by
  simp only [serveOverlaySet, State.rebuildRuns, Bool.not_eq_true', hopen, hruns, decide_false,
    Bool.true_eq_false, Bool.false_eq_true, if_false, hkey, acceptsLifetime_eq_false, overlayRoomRefusal_eq,
    apply_ite (carried p tag), carried_refuse]
  by_cases howned : ∃ o ∈ s.overlay? key, o.ownerPort ≠ p
  · simp only [if_pos howned, carried_refuse]
  · by_cases hfull : s.overlay? key = none ∧ 16 ≤ s.overlays.length
    · simp only [if_neg howned, if_pos hfull, carried_refuse]
    · simp only [if_neg howned, if_neg hfull, carried_answer]

/-- Settles O50: tests 1 and 2, test 3 on the key, then the tests on its descriptor and the overlay laid; and what a
record laid makes of a table of rising keys. -/
theorem overlaySets : Obligations.OverlaySets := by
  refine ⟨fun s d p tag key lifetime value bound hwf h => ?_,
    fun o overlays hrising => ⟨insertOverlay_rising o hrising, fun x => mem_insertOverlay hrising⟩⟩
  refine execRequest_carried h (overlaySet_request? hwf) ?_
  rw [State.serve]
  cases hopen : (d.session.get p).isOpen with
  | false => rw [serveOverlaySet_of_closed hopen, carried_refuse, if_pos rfl]
  | true =>
    rw [if_neg (by decide)]
    by_cases hruns : d.replay = .rebuilding
    · rw [serveOverlaySet_of_rebuilding hopen hruns, carried_refuse, if_pos hruns]
    · rw [if_neg hruns]
      cases hkey : descriptor? key.toNat with
      | none => rw [serveOverlaySet_of_unknownKey hopen hruns hkey, carried_refuse]
      | some c =>
        rw [carried_overlaySet_of_key hopen hruns hkey, setOverlay_eq]
        rfl

end Sys2Proof.Machine
end

section
/-! PROOF. The read requests of a key: GET (R153) and GET_DETAIL (R154), through their two tests to their data. -/

namespace Sys2Proof.Machine

/-! ### What the data are made of -/

/-- The record found for a key is that key's (section 1.3). -/
theorem State.keyRecord?_key {s : State} {key : Nat} {r : KeyRecord} (h : s.keyRecord? key = some r) :
    r.key = key := by
  simpa using List.find?_some h

/-- Stale, with the index read as an option: no entry of that sequence number shows nothing REVOKED (R20). -/
theorem State.isStale_eq_any (s : State) (r : KeyRecord) :
    s.isStale r = (r.provenance ≠ 0 && (s.entry? r.provenance).any fun e => e.state = .revoked) := by
  unfold State.isStale
  cases s.entry? r.provenance <;> rfl

theorem effectiveValue_of_overlay {s : State} {key : Nat} {o : OverlayRecord} (h : s.overlay? key = some o) :
    s.effectiveValue key = o.value := by
  rw [State.effectiveValue, h]

theorem effectiveValue_of_noOverlay {s : State} {key : Nat} (h : s.overlay? key = none) :
    s.effectiveValue key = s.activeValue key := by
  rw [State.effectiveValue, h]

/-! ### GET -/

/-- GET's answer: the two tests in their order, then the effective value with its source (R153). -/
theorem carried_get (s : State) (p : Port) (tag : Byte) (key : Nat) :
    carried p tag (serveGet s p key) =
      if s.replay = .rebuilding then s.answers p tag .rebuilding []
      else if descriptor? key = none then s.answers p tag .unknownKey []
      else s.answers p tag .ok
        (field16 key ++ flagByte (s.overlay? key).isSome :: valueField (s.effectiveValue key)) := by
  simp only [serveGet, State.rebuildRuns, decide_eq_true_eq, Option.isNone_iff_eq_none,
    apply_ite (carried p tag), carried_refuse, carried_answer]

/-! ### GET_DETAIL -/

theorem serveGetDetail_of_rebuilding {s : State} {p : Port} {key : Nat} (hruns : s.replay = .rebuilding) :
    serveGetDetail s p key = refuse s .rebuilding :=
  if_pos (decide_eq_true hruns)

/-- GET_DETAIL past test 1. -/
theorem serveGetDetail_of_noRun {s : State} {p : Port} {key : Nat} (hruns : s.replay ≠ .rebuilding) :
    serveGetDetail s p key =
      if descriptor? key = none then refuse s .unknownKey
      else (s.keyRecord? key).elim (refuse s .unknownKey) fun r => (s, .answer .ok (detailData s r)) := by
  simp only [serveGetDetail, State.rebuildRuns, hruns, decide_false, Bool.false_eq_true, if_false,
    Option.isNone_iff_eq_none]
  cases s.keyRecord? key <;> rfl

/-- The data of a key's record, field by field (R154, R182). -/
theorem detailData_eq {s : State} {key : Nat} {r : KeyRecord} (h : s.keyRecord? key = some r) :
    detailData s r =
      field16 key ++ [detailFlags r.pinned (s.isStale r)] ++ field16 r.provenance ++ optional16 r.pinSeq ++
        valueField r.active ++ optionalValueField r.pending ++ overlaySummary (s.overlay? key) := by
  simp only [detailData, State.keyRecord?_key h, List.append_assoc, List.cons_append, List.nil_append]

/-! ### The obligation -/

/-- Settles O37: each record is carried to its block, whose two tests in their order refuse or let its data through;
GET's split on whether an overlay stands on the key, GET_DETAIL's are those of the key's record. -/
theorem getsAnswer : Obligations.GetsAnswer := by
  refine ⟨fun s d p tag key h => ?_, fun s d p tag key h => ?_⟩
  · have hq := (wordRecord_request? .get tag key).trans (readWordArg_bytes16 .get key)
    refine execRequest_carried h hq ((carried_get d p tag key.toNat).trans ?_)
    congr 2
    cases ho : d.overlay? key.toNat with
    | none =>
      rw [effectiveValue_of_noOverlay ho, ← State.overlay?, ho]
      rfl
    | some o =>
      rw [effectiveValue_of_overlay ho, ← State.overlay?, ho]
      rfl
  · have hq := (wordRecord_request? .getDetail tag key).trans (readWordArg_bytes16 .getDetail key)
    refine ⟨fun hruns => execRequest_carried h hq ?_, fun hruns hkey => execRequest_carried h hq ?_,
      fun r hruns hkey hr => execRequest_carried h hq ?_⟩
    · rw [State.serve, serveGetDetail_of_rebuilding hruns, carried_refuse]
    · rw [State.serve, serveGetDetail_of_noRun hruns, if_pos hkey, carried_refuse]
    · have hrecord : d.keyRecord? key.toNat = some r := hr
      rw [State.serve, serveGetDetail_of_noRun hruns, if_neg hkey, hrecord, Option.elim_some, carried_answer,
        detailData_eq hrecord, State.isStale_eq_any]
      refine congrArg (d.answers p tag .ok) (congrArg₂ (· ++ ·) (congrArg₂ (· ++ ·) rfl ?pending) ?overlay)
      case pending => cases r.pending <;> rfl
      case overlay =>
        rw [← State.overlay?]
        cases d.overlay? key.toNat <;> rfl

end Sys2Proof.Machine
end

section
/-! PROOF. The end of a session and everything it hands on (R60, R96, R115, R124, R125, R175), as one next state. -/

namespace Sys2Proof.Machine

/-- A session end at the port's list and queued job: a QUEUED commit is recorded WITHDRAWN, a list that is not BURNING is
emptied, and the port's job leaves the queue (R60, R96). -/
theorem State.endStaging_eq (s : State) (p : Port) :
    s.endStaging p =
      { s with
        session := s.session.set p
          { s.session.get p with
            lastCommit :=
              if (s.staging.get p).state = .queued then ⟨.withdrawn, none, none, s.queuedGeneration p⟩
              else (s.session.get p).lastCommit }
        staging :=
          if (s.staging.get p).state = .queued ∨ (s.staging.get p).state = .building then
            s.staging.set p ⟨.empty, []⟩
          else s.staging
        burnQueue := s.burnQueue.filter (·.port ≠ p) } := by
  have hsame : s.session = s.session.set p { s.session.get p with lastCommit := (s.session.get p).lastCommit } :=
    (PerPort.set_get s.session p).symm
  unfold State.endStaging
  cases (s.staging.get p).state with
  | queued => rfl
  | empty => exact congrArg (fun x => { s.withoutJobs p with session := x }) hsame
  | burning => exact congrArg (fun x => { s.withoutJobs p with session := x }) hsame
  | building => exact congrArg (fun x => { (s.withoutJobs p).setStaging p ⟨.empty, []⟩ with session := x }) hsame

/-- A session end at the link: on port 2 the acknowledgement timer stops and a NOTE in TX starts none (R175). -/
theorem State.endNotices_eq (s : State) (p : Port) :
    s.endNotices p =
      { s with
        link :=
          if p = .port2 then
            { s.link with
              timer := .stopped, sendCount := 0
              sending := match s.link.sending with
                | some (.note _) => some (.note false)
                | other => other }
          else s.link } := by
  cases p <;> rfl

theorem State.endSession_of_closed {s : State} {p : Port} (h : (s.session.get p).isOpen = false) :
    s.endSession p = s := by
  rw [State.endSession, if_neg (by simp [h])]

/-- What the end of an open session leaves of everything but the notices its reports make (R124, R125). -/
def State.sessionEnded (s : State) (p : Port) : State :=
  { s with
    session := s.session.set p
      { s.session.get p with
        isOpen := false, watches := [], queue := [], lastRevoke := .none, lastRevokeSeq := none
        headSent := false, lateCount := 0
        lastCommit :=
          if (s.staging.get p).state = .queued then ⟨.withdrawn, none, none, s.queuedGeneration p⟩
          else (s.session.get p).lastCommit }
    staging :=
      if (s.staging.get p).state = .queued ∨ (s.staging.get p).state = .building then
        s.staging.set p ⟨.empty, []⟩
      else s.staging
    burnQueue := s.burnQueue.filter (·.port ≠ p)
    active := s.active.map fun a =>
      if a.job.port = p then { a with job := { a.job with notice := false } } else a
    requester := s.requester.map fun q => if q.port = p then { q with notice := false } else q
    link :=
      if p = .port2 then
        { s.link with
          timer := .stopped, sendCount := 0
          sending := match s.link.sending with
            | some (.note _) => some (.note false)
            | other => other }
      else s.link
    overlays := s.overlays.filter fun o => !(o.bound && o.ownerPort = p) }

theorem State.endSession_of_open {s : State} {p : Port} (h : (s.session.get p).isOpen = true) :
    s.endSession p = (s.sessionEnded p).sendReports
      ((s.overlays.filter fun o => o.bound && o.ownerPort = p).flatMap fun o =>
        keyReports s (s.sessionEnded p) o.key .sessionEnd p none) := by
  have hgeneration : (s.setSession p (s.session.get p).ended).queuedGeneration p = s.queuedGeneration p := by
    simp only [State.queuedGeneration, State.setSession_burnQueue, State.setSession_session,
      PerPort.get_set_self]
    rfl
  rw [State.endSession, if_pos h]
  simp only [State.endStaging_eq, State.endNotices_eq, State.endClaims, State.endOverlays,
    State.removeOverlays, hgeneration, State.setSession_session, State.setSession_staging, PerPort.get_set_self,
    PerPort.set_set]
  rfl

/-- Settles O41: a CLOSED port keeps everything; an open one takes the parts of a session end in turn, none of which
reads what another writes, and then its overlays' reports go out. -/
theorem sessionEnds : Obligations.SessionEnds :=
  fun _ _ => ⟨State.endSession_of_closed, State.endSession_of_open⟩

end Sys2Proof.Machine
end

section
/-! PROOF. At most one job per port, queued or held by the writer, through every step (R57). -/

namespace Sys2Proof.Machine

/-- What holds of the queue while the writer serves `j`: the ports of `j` and of the queued jobs differ (R57). -/
def State.queueLawWith (s : State) (j : Job) : Prop := (j.port :: s.burnQueue.map Job.port).Nodup

theorem State.queueLaw_of_active {s : State} {a : ActiveJob} (ha : s.active = some a) :
    s.queueLaw ↔ s.queueLawWith a.job := by
  rw [State.queueLaw, State.queueLawWith, ha]
  rfl

theorem State.queueLaw_of_idle {s : State} (ha : s.active = none) :
    s.queueLaw ↔ (s.burnQueue.map Job.port).Nodup := by
  rw [State.queueLaw, ha]
  rfl

/-- The queued jobs' ports differ, whatever the writer holds. -/
theorem State.queueLaw.queued {s : State} (h : s.queueLaw) : (s.burnQueue.map Job.port).Nodup :=
  (List.nodup_append.mp h).2.1

/-- A job that has ended leaves the queue as it was, with no job held (R72, R99). -/
theorem State.queueLaw_of_ended {s t : State} {j : Job} (h : s.queueLawWith j) (ha : t.active = none)
    (hq : t.burnQueue = s.burnQueue) : t.queueLaw := by
  rw [State.queueLaw_of_idle ha, hq]
  exact (List.nodup_cons.mp h).2

theorem State.endCommit_active (s : State) (j : Job) (result : Result) (seq failIndex : Option Nat) :
    (s.endCommit j result seq failIndex).active = none := rfl

theorem State.endRevoke_active (s : State) (j : Job) (result : Result) (target : Nat) :
    (s.endRevoke j result target).active = none := rfl

theorem State.endCommit_burnQueue (s : State) (j : Job) (result : Result) (seq failIndex : Option Nat) :
    (s.endCommit j result seq failIndex).burnQueue = s.burnQueue := by
  obtain ⟨_, h⟩ := State.endCommit_frame s j result seq failIndex
  rw [h]

theorem State.endRevoke_burnQueue (s : State) (j : Job) (result : Result) (target : Nat) :
    (s.endRevoke j result target).burnQueue = s.burnQueue := by
  obtain ⟨_, h⟩ := State.endRevoke_frame s j result target
  rw [h]

theorem queueLaw_writerKept : WriterKept State.queueLaw State.queueLawWith where
  figures _ _ _ _ _ _ _ _ _ _ h := h
  held _ _ h ha := (State.queueLaw_of_active ha).mp h
  take s j rest h hq := by
    have hqueued := h.queued
    rwa [hq] at hqueued
  burning _ _ h := h
  hold _ _ _ _ h hj _ := (State.queueLaw_of_active rfl).mpr (hj ▸ h)
  apply _ _ _ _ h := h
  reports _ _ _ h := h
  endCommit _ _ _ _ _ h := State.queueLaw_of_ended h (State.endCommit_active ..) (State.endCommit_burnQueue ..)
  endRevoke _ _ _ _ h := State.queueLaw_of_ended h (State.endRevoke_active ..) (State.endRevoke_burnQueue ..)
  free _ h _ := h
  rebuild _ h := h
  same _ _ h := h

/-- A port without a job has none queued and none held (R58). -/
theorem State.hasJob_eq_false {s : State} {p : Port} (h : s.hasJob p = false) :
    p ∉ s.active.toList.map (·.job.port) ++ s.burnQueue.map Job.port := by
  simp only [State.hasJob, Bool.or_eq_false_iff] at h
  obtain ⟨⟨⟨hqueued, hheld⟩, -⟩, -⟩ := h
  rw [List.mem_append, not_or]
  refine ⟨?_, by simpa using hqueued⟩
  cases ha : s.active with
  | none => simp
  | some a =>
    rw [ha] at hheld
    simpa [eq_comm] using hheld

theorem State.queueLaw_enqueue {s : State} {p : Port} (kind : JobKind) (h : s.queueLaw)
    (hnone : s.hasJob p = false) : (s.enqueue p kind).queueLaw := by
  have hfresh := State.hasJob_eq_false hnone
  rw [State.queueLaw, State.enqueue, List.map_append, ← List.append_assoc, List.map_singleton]
  exact List.nodup_append.mpr ⟨h, List.nodup_singleton p, fun q hq r hr hqr => by
    obtain rfl : r = p := List.mem_singleton.mp hr
    exact hfresh (hqr ▸ hq)⟩

theorem State.queueLaw_sublist {s t : State}
    (hactive : t.active.toList.map (·.job.port) = s.active.toList.map (·.job.port))
    (hqueue : t.burnQueue.Sublist s.burnQueue) (h : s.queueLaw) : t.queueLaw := by
  rw [State.queueLaw, hactive]
  exact h.sublist ((hqueue.map Job.port).append_left _)

/-- A session end takes jobs out of the queue; the writer's keeps its port (R60, R96, R125). -/
theorem State.queueLaw_endSession {s : State} (p : Port) (h : s.queueLaw) : (s.endSession p).queueLaw := by
  cases hopen : (s.session.get p).isOpen with
  | false => rwa [State.endSession_of_closed hopen]
  | true =>
    rw [State.endSession_of_open hopen]
    refine State.queueLaw_sublist (s := s) ?_ List.filter_sublist h
    show (s.active.map _).toList.map _ = _
    cases s.active with
    | none => rfl
    | some a =>
      simp only [Option.map_some, Option.toList_some, List.map_cons, List.map_nil]
      split <;> rfl

theorem State.queueLaw_serve (s : State) (p : Port) (q : Request) (h : s.queueLaw) : (s.serve p q).1.queueLaw := by
  generalize ht : (s.serve p q).1 = t
  have he : ServeEffect s p t := ht ▸ serve_effect s p q
  cases he with
  | opened => exact State.queueLaw_endSession p h
  | closed => exact State.queueLaw_endSession p h
  | committed _ hnone =>
    refine queueLaw_writerKept.arbitrate ?_
    exact State.queueLaw_enqueue (s := s) .commit h hnone
  | revoking seq _ hnone => exact queueLaw_writerKept.arbitrate (State.queueLaw_enqueue _ h hnone)
  | rebuilding => exact queueLaw_writerKept.arbitrate (s := { s with replay := _, requester := _ }) h
  | aborted => exact State.queueLaw_sublist (s := s) rfl List.filter_sublist h
  | unchanged => exact h
  | watching => exact h
  | noticeRead => exact h
  | staged => exact h
  | dropped => exact h
  | cleared => exact h
  | overlaid => exact h
  | uncovered => exact h
  | counters => exact h

theorem queueLaw_kept : Kept State.queueLaw where
  transport _ _ _ _ h := h
  cell _ _ h := h
  burnEn _ _ h := h
  queue _ _ h := h
  serve := State.queueLaw_serve
  endSession _ p h := State.queueLaw_endSession p h
  acknowledge _ h := h
  markSent _ h := h
  count _ h := h
  expiry _ h := h
  pulse _ taken pause h := queueLaw_writerKept.arbitrate (queueLaw_writerKept.burnPulse h taken pause)
  verify _ _ pause _ ha h :=
    queueLaw_writerKept.arbitrate (queueLaw_writerKept.stepVerify ((State.queueLaw_of_active ha).mp h) pause)
  startup _ _ h := queueLaw_writerKept.resolveGrant h
  rebuild s _ h := by
    refine queueLaw_writerKept.resolveGrant ?_
    obtain ⟨_, e⟩ := State.installRebuild_frame s
    rw [e]
    exact h
  reset _ _ := List.nodup_nil
  release _ _ _ _ h := h

/-- Settles O7: the law is kept by each shared operation, and so by every step. -/
theorem queueLawKept : Obligations.QueueLawKept := fun _ _ h hs => queueLaw_kept.step hs h

end Sys2Proof.Machine
end

section
/-! PROOF. The ends of the writer's jobs as whole next states (R43, R72, R99), and the Staging Lists' law through every
step (R47). -/

namespace Sys2Proof.Machine

/-! ### The ends of a job -/

/-- The space rule, in the figures of R42. -/
theorem spaceRule_iff (s : State) :
    spaceRule s.bodyTop s.slotsUsed = true ↔ s.freeSpace < 21 ∨ s.slotsUsed = 256 := by
  simp only [spaceRule, Bool.or_eq_true, decide_eq_true_eq]
  rfl

theorem journalAfterJob_eq (s : State) :
    journalAfterJob s =
      if s.journal = .opened ∧ (s.freeSpace < 21 ∨ s.slotsUsed = 256) then .full else s.journal := by
  simp only [journalAfterJob, spaceRule_iff]

/-- The end of a commit job, field by field (R72). -/
theorem State.endCommit_eq (s : State) (j : Job) (result : Result) (seq failIndex : Option Nat) :
    s.endCommit j result seq failIndex =
      { s with
        session := s.session.set j.port
          { (if j.notice then (s.session.get j.port).arrive (.commitDone result seq)
              else s.session.get j.port) with
            lastCommit := ⟨result, seq, failIndex, j.generation⟩ }
        staging := s.staging.set j.port
          (if result = .done ∨ j.notice = false then ⟨.empty, []⟩
            else { s.staging.get j.port with state := .building })
        journal :=
          if s.journal = .opened ∧ (s.freeSpace < 21 ∨ s.slotsUsed = 256) then .full else s.journal
        writer := .idle, active := none } := by
  rw [← journalAfterJob_eq]
  cases hn : j.notice with
  | false => simp only [State.endCommit, hn, Bool.false_eq_true, if_false]; rfl
  | true =>
    simp only [State.endCommit, hn, if_true, State.post, State.setSession_session, PerPort.get_set_self]
    rw [State.setSession, State.setSession_session, PerPort.set_set]
    rfl

/-- The end of a revoke job, field by field (R99). -/
theorem State.endRevoke_eq (s : State) (j : Job) (result : Result) (target : Nat) :
    s.endRevoke j result target =
      { s with
        session :=
          if j.notice then
            s.session.set j.port
              (({ s.session.get j.port with
                  lastRevoke := result, lastRevokeSeq := some target } : Session).arrive
                (.revokeDone result target))
          else s.session
        journal :=
          if s.journal = .opened ∧ (s.freeSpace < 21 ∨ s.slotsUsed = 256) then .full else s.journal
        writer := .idle, active := none } := by
  rw [← journalAfterJob_eq]
  cases hn : j.notice with
  | false => simp only [State.endRevoke, hn, Bool.false_eq_true, if_false]; rfl
  | true =>
    simp only [State.endRevoke, hn, if_true, State.post, State.setSession_session, PerPort.get_set_self]
    rw [State.setSession, State.setSession_session, PerPort.set_set]
    rfl

/-- Settles O27: each end of a job by its equation. -/
theorem jobsEnd : Obligations.JobsEnd := ⟨State.endCommit_eq, State.endRevoke_eq⟩

/-! ### A law of every port's item -/

theorem PerPort.forall_get_set {α : Type} {P : α → Prop} {x : PerPort α} {p : Port} {v : α}
    (h : ∀ q, P (x.get q)) (hv : P v) (q : Port) : P ((x.set p v).get q) := by
  rw [PerPort.get_set]
  split
  · exact hv
  · exact h q

theorem PerPort.forall_get_map {α : Type} {P : α → Prop} {x : PerPort α} {f : Port → α → α}
    (h : ∀ q, P (x.get q)) (hf : ∀ q v, P v → P (f q v)) (q : Port) : P ((x.map f).get q) := by
  rw [PerPort.get_map]
  exact hf q _ (h q)

/-! ### The law of the Staging Lists -/

theorem StagingList.lawful_empty : (⟨.empty, []⟩ : StagingList).lawful :=
  ⟨Nat.zero_le _, List.nodup_nil, by decide, fun _ => rfl⟩

/-- A lawful list of another state than EMPTY is lawful. -/
theorem StagingList.lawful_withState {l : StagingList} (h : l.lawful) {state : ListState} (hne : state ≠ .empty) :
    ({ l with state := state } : StagingList).lawful := by
  obtain ⟨hlength, hkeys, hbytes, -⟩ := h
  exact ⟨hlength, hkeys, hbytes, fun he => absurd he hne⟩

/-- A list that check 8 of R50 let in is lawful, where its keys differ. -/
theorem listOf_lawful {actions : List Action} (hkeys : (actions.map Action.key).Nodup)
    (hfits : fitsList actions = true) : (listOf actions).lawful := by
  simp only [fitsList, Bool.and_eq_true, decide_eq_true_eq] at hfits
  refine ⟨hfits.1, hkeys, hfits.2, fun he => ?_⟩
  by_contra hne
  simp only [listOf] at he hne
  simp [hne] at he

/-- A change of the actions that leaves their keys leaves the keys. -/
theorem map_key_of_keyKept {actions : List Action} {f : Action → Action} (hf : ∀ a, (f a).key = a.key) :
    (actions.map f).map Action.key = actions.map Action.key := by
  rw [List.map_map]
  exact List.map_congr_left fun a _ => hf a

/-- An action appended on a key that the list has not. -/
theorem nodup_keys_append {actions : List Action} {a : Action} (h : (actions.map Action.key).Nodup)
    (hnone : stages actions a.key = false) : ((actions ++ [a]).map Action.key).Nodup := by
  rw [stages_eq_false] at hnone
  rw [List.map_append, List.nodup_append]
  refine ⟨h, List.nodup_singleton _, fun k hk k' hk' heq => ?_⟩
  obtain ⟨b, hb, rfl⟩ := List.mem_map.mp hk
  obtain rfl : k' = a.key := by simpa using hk'
  exact hnone b hb heq

theorem stageAction_nodup {actions : List Action} (key : Nat) (op : ActionOp) (guard : Guard)
    (h : (actions.map Action.key).Nodup) : ((stageAction actions key op guard).map Action.key).Nodup := by
  unfold stageAction
  split
  next =>
    rw [map_key_of_keyKept]
    · exact h
    · intro a
      split <;> rfl
  next hnone => exact nodup_keys_append h (by simpa using hnone)

theorem stagePinFlag_nodup {actions : List Action} (key : Nat) (h : (actions.map Action.key).Nodup) :
    ((stagePinFlag actions key).map Action.key).Nodup := by
  unfold stagePinFlag
  split
  next =>
    rw [map_key_of_keyKept]
    · exact h
    · intro a
      split <;> rfl
  next hnone => exact nodup_keys_append h (by simpa using hnone)

/-- Fewer actions encode to no more bytes. -/
theorem encodedLength_filter_le (actions : List Action) (keep : Action → Bool) :
    encodedLength (actions.filter keep) ≤ encodedLength actions := by
  rw [encodedLength_eq, encodedLength_eq]
  exact Nat.add_le_add_left ((List.filter_sublist.map _).sum_le_sum fun _ _ => Nat.zero_le _) 1

theorem fitsList_filter {l : StagingList} (h : l.lawful) (keep : Action → Bool) :
    fitsList (l.actions.filter keep) = true := by
  obtain ⟨hlength, -, hbytes, -⟩ := h
  simp only [fitsList, Bool.and_eq_true, decide_eq_true_eq]
  exact ⟨(List.length_filter_le _ _).trans hlength, (encodedLength_filter_le _ _).trans hbytes⟩

theorem stagingLaw_writerKept : WriterKept State.stagingLaw fun s _ => s.stagingLaw where
  figures _ _ _ _ _ _ _ _ _ _ h := h
  held _ _ h _ := h
  take _ _ _ h _ := h
  burning s j h := PerPort.forall_get_set h (StagingList.lawful_withState (h j.port) (by decide))
  hold _ _ _ _ h _ _ := h
  apply _ _ _ _ h := h
  reports _ _ _ h := h
  endCommit s j result seq failIndex h := by
    rw [State.endCommit_eq]
    refine PerPort.forall_get_set h ?_
    split
    · exact StagingList.lawful_empty
    · exact StagingList.lawful_withState (h j.port) (by decide)
  endRevoke s j result target h := by
    obtain ⟨_, e⟩ := State.endRevoke_frame s j result target
    rw [e]
    exact h
  free _ h _ := h
  rebuild _ h := h
  same _ _ h := h

theorem State.stagingLaw_endSession {s : State} (p : Port) (h : s.stagingLaw) : (s.endSession p).stagingLaw := by
  cases hopen : (s.session.get p).isOpen with
  | false => rwa [State.endSession_of_closed hopen]
  | true =>
    rw [State.endSession_of_open hopen]
    intro q
    show ((if _ then s.staging.set p ⟨.empty, []⟩ else s.staging).get q).lawful
    split
    · exact PerPort.forall_get_set h StagingList.lawful_empty q
    · exact h q

theorem State.stagingLaw_serve (s : State) (p : Port) (q : Request) (h : s.stagingLaw) :
    (s.serve p q).1.stagingLaw := by
  generalize ht : (s.serve p q).1 = t
  have he : ServeEffect s p t := ht ▸ serve_effect s p q
  obtain ⟨-, hkeys, -, -⟩ := h p
  cases he with
  | opened => exact State.stagingLaw_endSession p h
  | closed => exact State.stagingLaw_endSession p h
  | staged d actions _ _ hfits hactions =>
    refine PerPort.forall_get_set h (listOf_lawful ?_ hfits)
    obtain ⟨op, guard, rfl⟩ | rfl := hactions
    · exact stageAction_nodup _ _ _ hkeys
    · exact stagePinFlag_nodup _ hkeys
  | dropped key =>
    exact PerPort.forall_get_set h
      (listOf_lawful (hkeys.sublist (List.filter_sublist.map _)) (fitsList_filter (h p) _))
  | cleared => exact PerPort.forall_get_set h StagingList.lawful_empty
  | committed =>
    refine stagingLaw_writerKept.arbitrate ?_
    exact PerPort.forall_get_set h (StagingList.lawful_withState (h p) (by decide))
  | aborted => exact PerPort.forall_get_set h (StagingList.lawful_withState (h p) (by decide))
  | revoking => exact stagingLaw_writerKept.arbitrate (s := s.enqueue p _) h
  | rebuilding => exact stagingLaw_writerKept.arbitrate (s := { s with replay := _, requester := _ }) h
  | unchanged => exact h
  | watching => exact h
  | noticeRead => exact h
  | overlaid => exact h
  | uncovered => exact h
  | counters => exact h

theorem stagingLaw_kept : Kept State.stagingLaw where
  transport _ _ _ _ h := h
  cell _ _ h := h
  burnEn _ _ h := h
  queue _ _ h := h
  serve := State.stagingLaw_serve
  endSession _ p h := State.stagingLaw_endSession p h
  acknowledge _ h := h
  markSent _ h := h
  count _ h := h
  expiry _ h := h
  pulse _ taken pause h := stagingLaw_writerKept.arbitrate (stagingLaw_writerKept.burnPulse h taken pause)
  verify _ _ pause _ _ h := stagingLaw_writerKept.arbitrate (stagingLaw_writerKept.stepVerify h pause)
  startup _ _ h := stagingLaw_writerKept.resolveGrant h
  rebuild s _ h := by
    refine stagingLaw_writerKept.resolveGrant ?_
    obtain ⟨_, e⟩ := State.installRebuild_frame s
    rw [e]
    exact h
  reset _ _ p := by cases p <;> exact StagingList.lawful_empty
  release _ _ _ _ h := h

/-- Settles O11: the law is kept by each shared operation, and so by every step. -/
theorem stagingLawKept : Obligations.StagingLawKept := fun _ _ h hs => stagingLaw_kept.step hs h

end Sys2Proof.Machine
end

section
/-! PROOF. The arrival of a notice (R133 to R136, R138, R139), and the law of the notice queues through every step
(R134). -/

namespace Sys2Proof.Machine

/-! ### Subjects and markers -/

/-- The key and layer that a VALUE_CHANGED arrival tells of. -/
def NoticeBody.subject? (body : NoticeBody) : Option (Nat × Layer) := Notice.subject? ⟨0, body⟩

theorem Notice.subject?_withBody (n : Notice) (body : NoticeBody) :
    Notice.subject? { n with body := body } = body.subject? := rfl

theorem Notice.tells_iff (n : Notice) (key : Nat) (layer : Layer) :
    n.tells key layer = true ↔ n.subject? = some (key, layer) := by
  unfold Notice.tells Notice.subject?
  cases n.body <;> simp

/-- A marker tells of no key. -/
theorem Notice.isMarker_of_subject {n : Notice} {subject : Nat × Layer} (h : n.subject? = some subject) :
    n.isMarker = false := by
  unfold Notice.subject? at h
  unfold Notice.isMarker
  cases hb : n.body with
  | valueChanged => rfl
  | commitDone | revokeDone | rebuildDone | rebuilt | noticesLost => simp [hb] at h

theorem Notice.isMarker_countLost (n : Notice) : n.countLost.isMarker = n.isMarker := by
  unfold Notice.countLost Notice.isMarker
  cases hb : n.body <;> simp [hb]

theorem Notice.subject?_countLost (n : Notice) : n.countLost.subject? = n.subject? := by
  unfold Notice.countLost Notice.subject?
  cases hb : n.body <;> simp [hb]

/-! ### Coalescing (test 1 of R134) -/

/-- The head that a queue has sent; a coalesced arrival leaves it alone (R138). -/
def Session.sentHead (u : Session) : List Notice := if u.headSent then u.queue.take 1 else []

theorem Session.sentHead_append_undelivered (u : Session) : u.sentHead ++ u.undelivered = u.queue := by
  unfold Session.sentHead Session.undelivered
  split
  · rw [← List.drop_one, List.take_append_drop]
  · rfl

theorem coalesceInto_none_iff {key : Nat} {layer : Layer} {body : NoticeBody} {queue : List Notice} :
    coalesceInto key layer body queue = none ↔ ∀ n ∈ queue, n.subject? ≠ some (key, layer) := by
  induction queue with
  | nil => simp [coalesceInto]
  | cons n rest ih =>
    by_cases hn : n.subject? = some (key, layer)
    · simp [coalesceInto, (Notice.tells_iff n key layer).mpr hn, hn]
    · simp [coalesceInto, Notice.tells_iff, hn, ih]

theorem coalesceInto_of_first {key : Nat} {layer : Layer} {body : NoticeBody} {n : Notice}
    {before after : List Notice} (hbefore : ∀ x ∈ before, x.subject? ≠ some (key, layer))
    (hn : n.subject? = some (key, layer)) :
    coalesceInto key layer body (before ++ n :: after) = some (before ++ { n with body := body } :: after) := by
  induction before with
  | nil => simp [coalesceInto, Notice.tells_iff, hn]
  | cons x rest ih =>
    rw [List.forall_mem_cons] at hbefore
    simp [coalesceInto, Notice.tells_iff, hbefore.1, ih hbefore.2]

/-- Where an arrival is coalesced, it takes the place of one notice of its subject. -/
theorem coalesceInto_some {key : Nat} {layer : Layer} {body : NoticeBody} {queue queue' : List Notice}
    (h : coalesceInto key layer body queue = some queue') :
    ∃ before n after, queue = before ++ n :: after ∧ n.subject? = some (key, layer) ∧
      queue' = before ++ { n with body := body } :: after := by
  induction queue generalizing queue' with
  | nil => cases h
  | cons n rest ih =>
    rw [coalesceInto] at h
    split at h
    next hn =>
      obtain rfl := Option.some.inj h
      exact ⟨[], n, rest, rfl, (Notice.tells_iff n key layer).mp hn, rfl⟩
    next =>
      obtain ⟨rest', hrest, rfl⟩ := Option.map_eq_some_iff.mp h
      obtain ⟨before, m, after, rfl, hm, rfl⟩ := ih hrest
      exact ⟨n :: before, m, after, rfl, hm, rfl⟩

/-- Test 1 looks at the undelivered notices, behind the head that has been sent. -/
theorem Session.coalesce?_of_subject {u : Session} {body : NoticeBody} {key : Nat} {layer : Layer}
    (h : body.subject? = some (key, layer)) :
    u.coalesce? body = (coalesceInto key layer body u.undelivered).map (u.sentHead ++ ·) := by
  cases body with
  | valueChanged k l cause port seq =>
    obtain ⟨rfl, rfl⟩ : k = key ∧ l = layer := by simpa [NoticeBody.subject?, Notice.subject?] using h
    unfold Session.coalesce? Session.undelivered Session.sentHead
    cases u.headSent <;> cases u.queue <;> simp [coalesceInto]
  | commitDone | revokeDone | rebuildDone | rebuilt | noticesLost => cases h

theorem Session.coalesce?_of_none {u : Session} {body : NoticeBody}
    (h : body.subject? = none ∨ ∀ x ∈ u.undelivered, x.subject? ≠ body.subject?) : u.coalesce? body = none := by
  cases hs : body.subject? with
  | none =>
    cases body with
    | valueChanged => cases hs
    | commitDone | revokeDone | rebuildDone | rebuilt | noticesLost => rfl
  | some subject =>
    rw [hs] at h
    obtain h | h := h
    · cases h
    · rw [Session.coalesce?_of_subject hs, coalesceInto_none_iff.mpr h, Option.map_none]

/-! ### The arrival rule -/

theorem Session.sentMarker_iff (u : Session) :
    u.sentMarker = true ↔ u.headSent = true ∧ ∃ h ∈ u.queue.head?, h.isMarker = true := by
  unfold Session.sentMarker
  cases u.queue <;> simp

theorem Session.arrive_of_coalesce {u : Session} {body : NoticeBody} {queue : List Notice}
    (h : u.coalesce? body = some queue) : u.arrive body = { u with queue := queue } := by
  rw [Session.arrive, h]

/-- An arrival that is not coalesced: counted into a marker, or joined, or a marker in its place (tests 2 to 4). -/
theorem Session.arrive_of_new {u : Session} {body : NoticeBody} (h : u.coalesce? body = none) :
    u.arrive body =
      if u.queue.any Notice.isMarker then
        { u with
          queue := u.queue.map Notice.countLost
          lateCount := if u.sentMarker then countUp 255 u.lateCount else u.lateCount }
      else if u.queue.length ≤ 14 then u.push body
      else u.push (.noticesLost 1) := by
  rw [Session.arrive, h]

theorem countUp_ite (p : Prop) [Decidable p] (top n : Nat) :
    (if p then countUp top n else n) = if p ∧ n < top then n + 1 else n := by
  unfold countUp
  by_cases hp : p <;> simp [hp]

/-- Settles O45: the four tests of R134 in turn. -/
theorem noticeArrives : Obligations.NoticeArrives := by
  intro u body
  refine ⟨fun sent before after n hsubject hqueue hsent hn hbefore => ?_, fun hnew => ?_⟩
  · obtain ⟨⟨key, layer⟩, hs⟩ := Option.ne_none_iff_exists'.mp hsubject
    have hsplit : u.sentHead = sent ∧ u.undelivered = before ++ n :: after := by
      unfold Session.sentHead Session.undelivered
      cases hhead : u.headSent with
      | false =>
        obtain rfl : sent = [] := List.length_eq_zero_iff.mp (by simpa [hhead] using hsent)
        exact ⟨rfl, hqueue⟩
      | true =>
        obtain ⟨head, rfl⟩ := List.length_eq_one_iff.mp (by simpa [hhead] using hsent)
        rw [hqueue]
        exact ⟨rfl, rfl⟩
    refine Session.arrive_of_coalesce ?_
    rw [Session.coalesce?_of_subject hs, hsplit.1, hsplit.2,
      coalesceInto_of_first (fun x hx => hs ▸ hbefore x hx) (hn.trans hs), Option.map_some, List.append_assoc]
  · have hnone : u.coalesce? body = none := Session.coalesce?_of_none hnew
    refine ⟨fun hmarker => ?_, fun hmarker hroom => ?_, fun hmarker hfull => ?_⟩
    · rw [Session.arrive_of_new hnone, if_pos hmarker]
      simp only [countUp_ite, Session.sentMarker_iff, and_assoc]
      congr 1
    · rw [Session.arrive_of_new hnone, if_neg (by simp [hmarker]), if_pos hroom]
      rfl
    · rw [Session.arrive_of_new hnone, if_neg (by simp [hmarker]), if_neg (by omega)]
      rfl

/-! ### The law of one queue -/

/-- The subjects that the undelivered notices tell of. -/
def Session.subjects (u : Session) : List (Nat × Layer) := u.undelivered.filterMap Notice.subject?

/-- The law of R134 bears on which notices are markers and on the subjects alone. -/
theorem Session.queueLawful_iff (u : Session) :
    u.queueLawful ↔
      (u.queue.map Notice.isMarker).length ≤ 16 ∧
      ((u.queue.map Notice.isMarker).length = 16 → true ∈ u.queue.map Notice.isMarker) ∧
      (∀ b ∈ (u.queue.map Notice.isMarker).dropLast, b = false) ∧ u.subjects.Nodup := by
  simp only [Session.queueLawful, Session.subjects, List.length_map, List.any_eq_true, List.mem_map,
    ← List.map_dropLast, forall_exists_index, and_imp, forall_apply_eq_imp_iff₂]

theorem Session.queueLawful_congr {u v : Session} (h : u.queueLawful)
    (hmarkers : v.queue.map Notice.isMarker = u.queue.map Notice.isMarker) (hsubjects : v.subjects = u.subjects) :
    v.queueLawful := by
  rw [Session.queueLawful_iff] at h ⊢
  rwa [hmarkers, hsubjects]

theorem Session.queueLawful_of_empty {u : Session} (h : u.queue = []) : u.queueLawful := by
  rw [Session.queueLawful_iff, Session.subjects, Session.undelivered, h]
  simp

theorem Session.queueLawful_single {u : Session} {n : Notice} (h : u.queue = [n]) : u.queueLawful := by
  have hsubjects : (List.filterMap Notice.subject? [n]).Nodup := by
    rw [List.filterMap_cons]
    split <;> simp
  have hsub : u.undelivered.Sublist [n] := by
    rw [Session.undelivered, h]
    split <;> simp
  rw [Session.queueLawful_iff, h]
  exact ⟨by simp, by simp, by simp, hsubjects.sublist (hsub.filterMap _)⟩

/-- A notice joined at the end of a queue without a marker: up to the fifteenth, or the sixteenth as the marker. -/
theorem Session.queueLawful_push {u : Session} {body : NoticeBody} (h : u.queueLawful)
    (hnone : u.queue.any Notice.isMarker = false)
    (hroom : u.queue.length ≤ 14 ∨ u.queue.length = 15 ∧ Notice.isMarker ⟨0, body⟩ = true)
    (hnew : body.subject? = none ∨ ∀ x ∈ u.undelivered, x.subject? ≠ body.subject?) :
    (u.push body).queueLawful := by
  obtain ⟨-, -, -, hsubjects⟩ := h
  rw [List.any_eq_false] at hnone
  refine ⟨?_, fun hfull => ?_, ?_, ?_⟩
  · simp only [Session.push, List.length_append, List.length_singleton, Config.noticeRoom]
    omega
  · simp only [Session.push, List.length_append, List.length_singleton, Config.noticeRoom] at hfull
    obtain hroom | ⟨-, hmarker⟩ := hroom
    · omega
    · exact List.any_eq_true.mpr ⟨_, List.mem_append_right _ List.mem_cons_self, hmarker⟩
  · intro n hn
    simp only [Session.push, List.dropLast_concat] at hn
    simpa using hnone n hn
  · have hsub : (u.push body).undelivered.Sublist (u.undelivered ++ [⟨u.tagCounter + 1, body⟩]) := by
      cases hhead : u.headSent <;> cases hq : u.queue <;> simp [Session.push, Session.undelivered, hhead, hq]
    refine List.Nodup.sublist (hsub.filterMap Notice.subject?) ?_
    rw [List.filterMap_append]
    refine List.nodup_append.mpr ⟨hsubjects, ?_, ?_⟩
    · rw [List.filterMap_cons]
      split <;> simp
    · intro k hk k' hk' heq
      obtain ⟨x, hx, hxk⟩ := List.mem_filterMap.mp hk
      obtain ⟨y, hy, hyk⟩ := List.mem_filterMap.mp hk'
      rw [List.mem_singleton.mp hy] at hyk
      have hbody : body.subject? = some k := heq ▸ hyk
      obtain hnew | hnew := hnew
      · rw [hnew] at hbody
        cases hbody
      · exact hnew x hx (hxk.trans hbody.symm)

/-- The arrival rule keeps the law of the queue (R134). -/
theorem Session.queueLawful_arrive {u : Session} (body : NoticeBody) (h : u.queueLawful) :
    (u.arrive body).queueLawful := by
  by_cases hnew : body.subject? = none ∨ ∀ x ∈ u.undelivered, x.subject? ≠ body.subject?
  · rw [Session.arrive_of_new (Session.coalesce?_of_none hnew)]
    split
    next hmarker =>
      refine Session.queueLawful_congr h ?_ ?_
      · simp only [List.map_map]
        exact List.map_congr_left fun n _ => n.isMarker_countLost
      · simp only [Session.subjects, Session.undelivered, ← List.map_tail, ← apply_ite (List.map Notice.countLost),
          List.filterMap_map]
        congr 1
        exact funext Notice.subject?_countLost
    next hnone =>
      have hnone : u.queue.any Notice.isMarker = false := by simpa using hnone
      split
      next hroom => exact Session.queueLawful_push h hnone (.inl hroom) hnew
      next hroom =>
        have ⟨hlength, hmarker, _, _⟩ := h
        have hfifteen : u.queue.length = 15 := by
          have hne : u.queue.length ≠ 16 := fun hfull => by simp [hmarker hfull] at hnone
          simp only [Config.noticeRoom] at hlength
          omega
        exact Session.queueLawful_push h hnone (.inr ⟨hfifteen, rfl⟩) (.inl rfl)
  · rw [not_or] at hnew
    obtain ⟨⟨key, layer⟩, hs⟩ := Option.ne_none_iff_exists'.mp hnew.1
    cases hc : coalesceInto key layer body u.undelivered with
    | none => exact absurd (coalesceInto_none_iff.mp hc) (hs ▸ hnew.2)
    | some queue =>
      have harrive := Session.arrive_of_coalesce (u := u) (body := body)
        (by rw [Session.coalesce?_of_subject hs, hc, Option.map_some])
      obtain ⟨before, n, after, hundelivered, hn, rfl⟩ := coalesceInto_some hc
      have hqueue := u.sentHead_append_undelivered
      rw [harrive]
      refine Session.queueLawful_congr h ?_ ?_
      · have hbody : Notice.isMarker { n with body := body } = n.isMarker :=
          (Notice.isMarker_of_subject (n := { n with body := body }) hs).trans (Notice.isMarker_of_subject hn).symm
        rw [← hqueue, hundelivered]
        simp [hbody]
      · have hundelivered' : Session.undelivered
            { u with queue := u.sentHead ++ (before ++ { n with body := body } :: after) } =
              before ++ { n with body := body } :: after := by
          simp only [Session.undelivered, Session.sentHead] at hqueue hundelivered ⊢
          split
          next hsent =>
            simp only [hsent, if_true] at hundelivered
            cases hq : u.queue with
            | nil => simp [hq] at hundelivered
            | cons head rest => simp
          next => rfl
        rw [Session.subjects, Session.subjects, hundelivered', hundelivered]
        simp [hn, Notice.subject?_withBody, hs]

/-! ### The queue as notices leave it, and as a session begins and ends -/

theorem Session.queueLawful_rest {u v : Session} {head : Notice} (h : u.queueLawful) (hq : u.queue = head :: v.queue)
    (hv : v.headSent = true → u.headSent = true) : v.queueLawful := by
  obtain ⟨hlength, -, hmarkers, hsubjects⟩ := h
  rw [hq, List.length_cons] at hlength
  have hsub : v.undelivered.Sublist u.undelivered := by
    cases hu : u.headSent <;> cases hv' : v.headSent <;> simp_all [Session.undelivered, List.tail_sublist]
  refine ⟨by omega, fun hfull => by omega, fun n hn => hmarkers n ?_, hsubjects.sublist (hsub.filterMap _)⟩
  cases hrest : v.queue with
  | nil => rw [hrest] at hn; cases hn
  | cons m rest =>
    rw [hq, hrest, List.dropLast_cons_cons, ← hrest]
    exact List.mem_cons_of_mem _ hn

/-- An acknowledged head leaves, or the marker at the end stays with another count and tag (R138, R139). -/
theorem Session.queueLawful_acknowledge {u : Session} (h : u.queueLawful) : u.acknowledge.queueLawful := by
  unfold Session.acknowledge
  split
  next => exact h
  next head rest hq =>
    split
    next hmarker =>
      obtain ⟨-, -, hmarkers, -⟩ := h
      cases rest with
      | nil => exact Session.queueLawful_single rfl
      | cons m rest =>
        have hnone := hmarkers head (by rw [hq, List.dropLast_cons_cons]; exact List.mem_cons_self)
        rw [hnone] at hmarker
        cases hmarker.1
    next => exact Session.queueLawful_rest h hq (by simp)

theorem Session.queueLawful_markSent {u : Session} (h : u.queueLawful) : u.markSent.queueLawful := by
  obtain ⟨hlength, hfull, hmarkers, hsubjects⟩ := h
  refine ⟨hlength, hfull, hmarkers, hsubjects.sublist (List.Sublist.filterMap _ ?_)⟩
  unfold Session.undelivered
  cases u.headSent
  · exact List.tail_sublist _
  · exact List.Sublist.refl _

theorem Session.queueLawful_takeReport {u : Session} (r : Report) (h : u.queueLawful) :
    (u.takeReport r).queueLawful := by
  unfold Session.takeReport
  split
  · exact Session.queueLawful_arrive _ h
  · exact h

theorem Session.queueLawful_takeReports {u : Session} (reports : List Report) (h : u.queueLawful) :
    (reports.foldl Session.takeReport u).queueLawful := by
  induction reports generalizing u with
  | nil => exact h
  | cons r rest ih => exact ih (Session.queueLawful_takeReport r h)

/-! ### The law of every queue -/

theorem State.noticeLaw_sendReports {s : State} (reports : List Report) (h : s.noticeLaw) :
    (s.sendReports reports).noticeLaw :=
  PerPort.forall_get_map h fun _ _ => Session.queueLawful_takeReports reports

theorem State.noticeLaw_removeOverlays {s : State} (gone : OverlayRecord → Bool) (cause : Cause)
    (port : OverlayRecord → Port) (h : s.noticeLaw) : (s.removeOverlays gone cause port).noticeLaw :=
  State.noticeLaw_sendReports (s := { s with overlays := _ }) _ h

theorem State.noticeLaw_post {s : State} (p : Port) (body : NoticeBody) (h : s.noticeLaw) :
    (s.post p body).noticeLaw :=
  PerPort.forall_get_set h (Session.queueLawful_arrive body (h p))

theorem State.noticeLaw_endSession {s : State} (p : Port) (h : s.noticeLaw) : (s.endSession p).noticeLaw := by
  cases hopen : (s.session.get p).isOpen with
  | false => rwa [State.endSession_of_closed hopen]
  | true =>
    rw [State.endSession_of_open hopen]
    exact State.noticeLaw_sendReports _ (PerPort.forall_get_set h (Session.queueLawful_of_empty rfl))

theorem State.noticeLaw_openSession {s : State} (p : Port) (h : s.noticeLaw) : (s.openSession p).noticeLaw :=
  PerPort.forall_get_set (State.noticeLaw_endSession p h) (Session.queueLawful_of_empty rfl)

theorem noticeLaw_writerKept : WriterKept State.noticeLaw fun s _ => s.noticeLaw where
  figures _ _ _ _ _ _ _ _ _ _ h := h
  held _ _ h _ := h
  take _ _ _ h _ := h
  burning _ _ h := h
  hold _ _ _ _ h _ _ := h
  apply _ _ _ _ h := h
  reports _ _ reports h := State.noticeLaw_sendReports reports h
  endCommit s j result seq failIndex h := by
    rw [State.endCommit_eq]
    refine PerPort.forall_get_set h ?_
    cases j.notice with
    | false => exact h j.port
    | true => exact Session.queueLawful_arrive (.commitDone result seq) (h j.port)
  endRevoke s j result target h := by
    rw [State.endRevoke_eq]
    cases j.notice with
    | false => exact h
    | true => exact PerPort.forall_get_set h (Session.queueLawful_arrive (.revokeDone result target) (h j.port))
  free _ h _ := h
  rebuild _ h := h
  same _ _ h := h

theorem State.noticeLaw_serve (s : State) (p : Port) (q : Request) (h : s.noticeLaw) :
    (s.serve p q).1.noticeLaw := by
  generalize ht : (s.serve p q).1 = t
  have he : ServeEffect s p t := ht ▸ serve_effect s p q
  cases he with
  | opened => exact State.noticeLaw_openSession p h
  | closed => exact State.noticeLaw_endSession p h
  | watching => exact PerPort.forall_get_set h (h p)
  | noticeRead n rest _ _ hq => exact PerPort.forall_get_set h (Session.queueLawful_rest (h p) hq id)
  | committed =>
    exact noticeLaw_writerKept.arbitrate (s := (s.setStaging p _).enqueue p .commit) h
  | aborted => exact PerPort.forall_get_set h (h p)
  | overlaid d => exact State.noticeLaw_sendReports (s := { s with overlays := _ }) _ h
  | uncovered => exact State.noticeLaw_removeOverlays _ _ _ h
  | revoking => exact noticeLaw_writerKept.arbitrate (s := s.enqueue p _) h
  | rebuilding => exact noticeLaw_writerKept.arbitrate (s := { s with replay := _, requester := _ }) h
  | unchanged => exact h
  | staged => exact h
  | dropped => exact h
  | cleared => exact h
  | counters => exact h

/-- The notices at the end of a REBUILD run come by the arrival rule (R92). -/
theorem State.noticeLaw_postRebuild {s : State} (requester : Option Requester) (counts : ReplayCounts)
    (h : s.noticeLaw) : (s.postRebuild requester counts).noticeLaw := by
  cases requester with
  | none => exact h
  | some r =>
    have htold : State.noticeLaw
        { s with
          session := s.session.map fun _ u =>
            if u.isOpen && !u.watches.isEmpty then u.arrive (.rebuilt r.port) else u } :=
      PerPort.forall_get_map h fun _ u hu => by
        split
        · exact Session.queueLawful_arrive _ hu
        · exact hu
    simp only [State.postRebuild]
    split
    · exact State.noticeLaw_post _ _ htold
    · exact htold

theorem noticeLaw_kept : Kept State.noticeLaw where
  transport _ _ _ _ h := h
  cell _ _ h := h
  burnEn _ _ h := h
  queue _ _ h := h
  serve := State.noticeLaw_serve
  endSession _ p h := State.noticeLaw_endSession p h
  acknowledge _ h := PerPort.forall_get_set h (Session.queueLawful_acknowledge (h .port2))
  markSent _ h := PerPort.forall_get_set h (Session.queueLawful_markSent (h .port2))
  count _ h := h
  expiry _ h := State.noticeLaw_removeOverlays _ _ _ h
  pulse _ taken pause h := noticeLaw_writerKept.arbitrate (noticeLaw_writerKept.burnPulse h taken pause)
  verify _ _ pause _ _ h := noticeLaw_writerKept.arbitrate (noticeLaw_writerKept.stepVerify h pause)
  startup _ _ h := noticeLaw_writerKept.resolveGrant h
  rebuild s _ h := noticeLaw_writerKept.resolveGrant
    (State.noticeLaw_postRebuild (s := { s.installJournal _ with table := _, overlays := _ }) _ _ h)
  reset _ _ p := by cases p <;> exact Session.queueLawful_of_empty rfl
  release _ _ _ _ h := h

/-- Settles O12: the law is kept by each shared operation, and so by every step. -/
theorem noticeLawKept : Obligations.NoticeLawKept := fun _ _ h hs => noticeLaw_kept.step hs h

end Sys2Proof.Machine
end

section
/-! PROOF. Change reports, one by one (R23, R127, R130), and the session laws through every step: CLOSED sessions keep
nothing, and a set notice flag names its own open session (R57, R77, R124, R125). -/

namespace Sys2Proof.Machine

/-! ### Change reports -/

theorem Session.takeReport_eq (u : Session) (r : Report) :
    u.takeReport r =
      if u.isOpen = true ∧ ∃ x ∈ u.watches, x.1 ≤ r.key ∧ r.key ≤ x.2 then
        u.arrive (.valueChanged r.key r.layer r.cause r.causePort r.seq)
      else u := by
  simp only [Session.takeReport, Session.watchesKey, Bool.and_eq_true, List.any_eq_true, decide_eq_true_eq]

theorem State.sendReports_nil (s : State) : s.sendReports [] = s := rfl

theorem State.sendReports_cons (s : State) (r : Report) (rest : List Report) :
    s.sendReports (r :: rest) =
      State.sendReports { s with session := s.session.map fun _ u => u.takeReport r } rest := rfl

theorem State.activeValue_eq (s : State) (key : Nat) :
    s.activeValue key = ((s.table.find? (·.key = key)).map KeyRecord.active).getD [] := by
  rw [State.activeValue, State.keyRecord?]
  cases s.table.find? _ <;> rfl

theorem State.effectiveValue_eq (s : State) (key : Nat) :
    s.effectiveValue key =
      ((s.overlays.find? (·.key = key)).map OverlayRecord.value).getD
        (((s.table.find? (·.key = key)).map KeyRecord.active).getD []) := by
  rw [State.effectiveValue, State.overlay?, State.activeValue_eq]
  cases s.overlays.find? _ <;> rfl

theorem State.pendingValue_eq (s : State) (key : Nat) :
    s.pendingValue key = (s.table.find? (·.key = key)).bind KeyRecord.pending := by
  rw [State.pendingValue, State.keyRecord?]
  cases s.table.find? _ <;> rfl

theorem State.overlay?_isSome (s : State) (key : Nat) :
    (s.overlay? key).isSome = true ↔ ∃ o ∈ s.overlays, o.key = key := by
  simp only [State.overlay?, List.find?_isSome, decide_eq_true_eq]

/-- Settles O29: a report at each session, a key's reports from its two values, and the reports of a patch apply. -/
theorem changeReports : Obligations.ChangeReports := by
  refine ⟨fun s r rest => ⟨s.sendReports_nil, ?_⟩, fun before after key cause port seq => ?_,
    fun before after actions origin seq => ?_⟩
  · simp only [State.sendReports_cons, Session.takeReport_eq]
  · simp only [keyReports, State.effectiveValue_eq, State.pendingValue_eq]
  · simp only [applyReports, Bool.and_eq_true, State.overlay?_isSome, List.flatMap]

/-! ### What notices and reports leave of a session -/

/-- An arrival touches the queue, the tag counter and the late count alone (R134). -/
theorem Session.arrive_frame (u : Session) (body : NoticeBody) :
    ∃ v : Session, u.arrive body =
      { u with queue := v.queue, tagCounter := v.tagCounter, lateCount := v.lateCount } := by
  refine ⟨u.arrive body, ?_⟩
  unfold Session.arrive
  split
  · rfl
  · split
    · rfl
    · split <;> rfl

theorem Session.arrive_isOpen (u : Session) (body : NoticeBody) : (u.arrive body).isOpen = u.isOpen := by
  obtain ⟨_, h⟩ := u.arrive_frame body
  rw [h]

theorem Session.arrive_generation (u : Session) (body : NoticeBody) :
    (u.arrive body).generation = u.generation := by
  obtain ⟨_, h⟩ := u.arrive_frame body
  rw [h]

/-- A change of a session that leaves it open or closed with its generation, and leaves a CLOSED one empty. -/
structure Session.Continues (u v : Session) : Prop where
  isOpen : v.isOpen = u.isOpen
  generation : v.generation = u.generation
  clean : u.closedClean → v.closedClean

theorem Session.Continues.refl (u : Session) : u.Continues u := ⟨rfl, rfl, id⟩

theorem Session.Continues.trans {u v w : Session} (h : u.Continues v) (h' : v.Continues w) : u.Continues w :=
  ⟨h'.isOpen.trans h.isOpen, h'.generation.trans h.generation, fun hu => h'.clean (h.clean hu)⟩

/-- Of an open session everything but the generation may change. -/
theorem Session.Continues.of_open {u v : Session} (hu : u.isOpen = true) (hv : v.isOpen = true)
    (hg : v.generation = u.generation) : u.Continues v :=
  ⟨hv.trans hu.symm, hg, fun _ hclosed => by rw [hv] at hclosed; cases hclosed⟩

theorem Session.Continues.arrive {u : Session} (hu : u.isOpen = true) (body : NoticeBody) :
    u.Continues (u.arrive body) :=
  .of_open hu ((u.arrive_isOpen body).trans hu) (u.arrive_generation body)

theorem Session.Continues.takeReport (u : Session) (r : Report) : u.Continues (u.takeReport r) := by
  unfold Session.takeReport
  split
  next h =>
    rw [Bool.and_eq_true] at h
    exact .arrive h.1 _
  next => exact .refl u

theorem Session.Continues.takeReports (u : Session) (reports : List Report) :
    u.Continues (reports.foldl Session.takeReport u) := by
  induction reports generalizing u with
  | nil => exact .refl u
  | cons r rest ih => exact (Session.Continues.takeReport u r).trans (ih _)

theorem Session.Continues.acknowledge (u : Session) : u.Continues u.acknowledge := by
  unfold Session.acknowledge
  split
  next => exact .refl u
  next head rest hq =>
    have hopen : u.closedClean → u.isOpen = true := fun hclean => by
      by_contra hclosed
      have ⟨_, hqueue, _⟩ := hclean (by simpa using hclosed)
      rw [hq] at hqueue
      cases hqueue
    split <;> exact ⟨rfl, rfl, fun hclean hclosed => by rw [hopen hclean] at hclosed; cases hclosed⟩

/-! ### The claims of jobs and runs -/

/-- The session laws, with the jobs that may name a session given: CLOSED sessions empty, and every set notice flag of
these jobs and of the requester with its own open session. -/
structure State.Claims (s : State) (jobs : List Job) : Prop where
  clean : ∀ p, (s.session.get p).closedClean
  jobs : ∀ j ∈ jobs, j.notice = true →
    (s.session.get j.port).isOpen = true ∧ (s.session.get j.port).generation = j.generation
  requester : ∀ r ∈ s.requester, r.notice = true →
    (s.session.get r.port).isOpen = true ∧ (s.session.get r.port).generation = r.generation

theorem State.sessionLaw_iff (s : State) :
    s.sessionLaw ↔ s.Claims (s.active.toList.map ActiveJob.job ++ s.burnQueue) :=
  ⟨fun ⟨hclean, hjobs, hrequester⟩ => ⟨hclean, hjobs, hrequester⟩,
    fun h => ⟨h.clean, h.jobs, h.requester⟩⟩

theorem State.Claims.subset {s : State} {jobs jobs' : List Job} (h : s.Claims jobs) (hsub : jobs' ⊆ jobs) :
    s.Claims jobs' :=
  ⟨h.clean, fun j hj => h.jobs j (hsub hj), h.requester⟩

/-- Sessions that go on keep every claim; a requester may be dropped. -/
theorem State.Claims.continues {s t : State} {jobs : List Job} (h : s.Claims jobs)
    (hsession : ∀ p, (s.session.get p).Continues (t.session.get p))
    (hrequester : ∀ r ∈ t.requester, r ∈ s.requester) : t.Claims jobs where
  clean p := (hsession p).clean (h.clean p)
  jobs j hj hn := by
    rw [(hsession j.port).isOpen, (hsession j.port).generation]
    exact h.jobs j hj hn
  requester r hr hn := by
    rw [(hsession r.port).isOpen, (hsession r.port).generation]
    exact h.requester r (hrequester r hr) hn

theorem PerPort.forall_get_set_rel {α : Type} {R : α → α → Prop} {x : PerPort α} {p : Port} {v : α}
    (hrefl : ∀ u, R u u) (hv : R (x.get p) v) (q : Port) : R (x.get q) ((x.set p v).get q) := by
  rw [PerPort.get_set]
  split
  next h => exact h ▸ hv
  next => exact hrefl _

theorem State.Claims.setSession {s : State} {jobs : List Job} (h : s.Claims jobs) {p : Port} {u : Session}
    (hu : (s.session.get p).Continues u) : (s.setSession p u).Claims jobs :=
  h.continues (PerPort.forall_get_set_rel .refl hu) fun _ hr => hr

theorem State.Claims.sendReports {s : State} {jobs : List Job} (h : s.Claims jobs) (reports : List Report) :
    (s.sendReports reports).Claims jobs :=
  h.continues (fun p => by
    rw [State.sendReports, PerPort.get_map]
    exact .takeReports _ _) fun _ hr => hr

theorem State.Claims.endCommit {s : State} {j : Job} (h : s.Claims (j :: s.burnQueue)) (result : Result)
    (seq failIndex : Option Nat) : (s.endCommit j result seq failIndex).sessionLaw := by
  rw [State.sessionLaw_iff, State.endCommit_eq]
  refine State.Claims.continues (h.subset (List.subset_cons_self _ _)) (PerPort.forall_get_set_rel .refl ?_)
    fun _ hr => hr
  cases hn : j.notice with
  | false => exact ⟨rfl, rfl, id⟩
  | true =>
    obtain ⟨hopen, -⟩ := h.jobs j List.mem_cons_self hn
    exact (Session.Continues.arrive hopen (.commitDone result seq)).trans ⟨rfl, rfl, fun hclean => hclean⟩

theorem State.Claims.endRevoke {s : State} {j : Job} (h : s.Claims (j :: s.burnQueue)) (result : Result)
    (target : Nat) : (s.endRevoke j result target).sessionLaw := by
  rw [State.sessionLaw_iff, State.endRevoke_eq]
  refine State.Claims.continues (h.subset (List.subset_cons_self _ _)) ?_ fun _ hr => hr
  cases hn : j.notice with
  | false => exact fun p => .refl _
  | true =>
    obtain ⟨hopen, -⟩ := h.jobs j List.mem_cons_self hn
    refine PerPort.forall_get_set_rel .refl ?_
    exact .of_open hopen ((Session.arrive_isOpen _ _).trans hopen) (Session.arrive_generation _ _)

theorem sessionLaw_writerKept : WriterKept State.sessionLaw fun s j => s.Claims (j :: s.burnQueue) where
  figures _ _ _ _ _ _ _ _ _ _ h := ⟨h.clean, h.jobs, h.requester⟩
  held s a h ha := by
    rw [State.sessionLaw_iff, ha] at h
    exact h
  take s j rest h hq := by
    rw [State.sessionLaw_iff, hq] at h
    have ⟨hclean, hjobs, hrequester⟩ := h.subset (List.subset_append_right _ _)
    exact ⟨hclean, hjobs, hrequester⟩
  burning _ _ h := ⟨h.clean, h.jobs, h.requester⟩
  hold s j step a h hj _ := by
    subst hj
    exact (State.sessionLaw_iff _).mpr ⟨h.clean, h.jobs, h.requester⟩
  apply _ _ _ _ h := ⟨h.clean, h.jobs, h.requester⟩
  reports _ _ reports h := h.sendReports reports
  endCommit _ _ result seq failIndex h := h.endCommit result seq failIndex
  endRevoke _ _ result target h := h.endRevoke result target
  free _ h _ := h
  rebuild _ h := h
  same _ _ h := h

/-! ### The end and the begin of a session -/

theorem Session.closedClean_of_empty {u : Session} (hw : u.watches = []) (hq : u.queue = [])
    (hr : u.lastRevoke = .none) (hs : u.lastRevokeSeq = none) : u.closedClean := fun _ => ⟨hw, hq, hr, hs⟩

/-- After a session end the port is CLOSED (R124). -/
theorem State.endSession_isOpen (s : State) (p : Port) : ((s.endSession p).session.get p).isOpen = false := by
  cases hopen : (s.session.get p).isOpen with
  | false => rwa [State.endSession_of_closed hopen]
  | true =>
    rw [State.endSession_of_open hopen, State.sendReports, PerPort.get_map, (Session.Continues.takeReports _ _).isOpen,
      State.sessionEnded, PerPort.get_set_self]

/-- A session end clears the notice flags of its port, so that what is still claimed is claimed of another (R125). -/
theorem State.sessionLaw_sessionEnded {s : State} (p : Port) (h : s.sessionLaw) : (s.sessionEnded p).sessionLaw := by
  rw [State.sessionLaw_iff] at h ⊢
  have hother : ∀ q : Port, q ≠ p → (s.sessionEnded p).session.get q = s.session.get q := fun q hq => by
    rw [State.sessionEnded, PerPort.get_set_of_ne _ _ hq]
  refine ⟨fun q => ?_, fun j hj hn => ?_, fun r hr hn => ?_⟩
  · by_cases hq : q = p
    · subst hq
      rw [State.sessionEnded, PerPort.get_set_self]
      exact Session.closedClean_of_empty rfl rfl rfl rfl
    · rw [hother q hq]
      exact h.clean q
  · have hkept : j.port ≠ p ∧ j ∈ s.active.toList.map ActiveJob.job ++ s.burnQueue := by
      simp only [State.sessionEnded, List.mem_append, List.mem_map, Option.mem_toList,
        Option.map_eq_some_iff, List.mem_filter, decide_eq_true_eq] at hj ⊢
      obtain ⟨b, ⟨a, ha, rfl⟩, rfl⟩ | ⟨hqueued, hport⟩ := hj
      · split at hn
        next => cases hn
        next hport =>
          rw [if_neg hport]
          exact ⟨hport, .inl ⟨a, ha, rfl⟩⟩
      · exact ⟨hport, .inr hqueued⟩
    rw [hother _ hkept.1]
    exact h.jobs j hkept.2 hn
  · have hkept : r.port ≠ p ∧ r ∈ s.requester := by
      simp only [State.sessionEnded, Option.mem_def, Option.map_eq_some_iff] at hr ⊢
      obtain ⟨q, hq, rfl⟩ := hr
      split at hn
      next => cases hn
      next hport =>
        rw [if_neg hport]
        exact ⟨hport, hq⟩
    rw [hother _ hkept.1]
    exact h.requester r hkept.2 hn

theorem State.sessionLaw_endSession {s : State} (p : Port) (h : s.sessionLaw) : (s.endSession p).sessionLaw := by
  cases hopen : (s.session.get p).isOpen with
  | false => rwa [State.endSession_of_closed hopen]
  | true =>
    rw [State.endSession_of_open hopen, State.sessionLaw_iff]
    exact State.Claims.sendReports ((State.sessionLaw_iff _).mp (State.sessionLaw_sessionEnded p h)) _

/-- On a CLOSED port any session may stand that is open: nothing claims one there. -/
theorem State.sessionLaw_setSession_of_closed {s : State} {p : Port} {u : Session} (h : s.sessionLaw)
    (hclosed : (s.session.get p).isOpen = false) (hu : u.closedClean) : (s.setSession p u).sessionLaw := by
  rw [State.sessionLaw_iff] at h ⊢
  have hother : ∀ q : Port, (s.session.get q).isOpen = true → (s.session.set p u).get q = s.session.get q :=
    fun q hq => PerPort.get_set_of_ne _ _ fun heq => by rw [heq, hclosed] at hq; cases hq
  refine ⟨PerPort.forall_get_set h.clean hu, fun j hj hn => ?_, fun r hr hn => ?_⟩
  · obtain ⟨hopen, hgeneration⟩ := h.jobs j hj hn
    rw [State.setSession_session, hother _ hopen]
    exact ⟨hopen, hgeneration⟩
  · obtain ⟨hopen, hgeneration⟩ := h.requester r hr hn
    rw [State.setSession_session, hother _ hopen]
    exact ⟨hopen, hgeneration⟩

theorem State.sessionLaw_openSession {s : State} (p : Port) (h : s.sessionLaw) : (s.openSession p).sessionLaw :=
  State.sessionLaw_setSession_of_closed (State.sessionLaw_endSession p h) (s.endSession_isOpen p)
    (Session.closedClean_of_empty rfl rfl rfl rfl)

/-! ### The session laws -/

/-- A job or run claimed for an open session with its generation (R57, R77). -/
theorem State.sessionLaw_enqueue {s : State} {p : Port} (kind : JobKind) (h : s.sessionLaw)
    (hopen : (s.session.get p).isOpen = true) : (s.enqueue p kind).sessionLaw := by
  rw [State.sessionLaw_iff] at h ⊢
  refine ⟨h.clean, fun j hj hn => ?_, h.requester⟩
  rw [State.enqueue, ← List.append_assoc, List.mem_append] at hj
  obtain hj | hj := hj
  · exact h.jobs j hj hn
  · obtain rfl := List.mem_singleton.mp hj
    exact ⟨hopen, rfl⟩

theorem State.sessionLaw_setSession {s : State} {p : Port} {u : Session} (h : s.sessionLaw)
    (hu : (s.session.get p).Continues u) : (s.setSession p u).sessionLaw :=
  (State.sessionLaw_iff _).mpr (((State.sessionLaw_iff s).mp h).setSession hu)

theorem State.sessionLaw_overlayReports {s : State} (overlays : List OverlayRecord) (reports : List Report)
    (h : s.sessionLaw) : (State.sendReports { s with overlays := overlays } reports).sessionLaw :=
  (State.sessionLaw_iff _).mpr
    (State.Claims.sendReports (s := { s with overlays := overlays }) ((State.sessionLaw_iff _).mp h) reports)

theorem State.sessionLaw_removeOverlays {s : State} (gone : OverlayRecord → Bool) (cause : Cause)
    (port : OverlayRecord → Port) (h : s.sessionLaw) : (s.removeOverlays gone cause port).sessionLaw :=
  State.sessionLaw_overlayReports _ _ h

theorem State.sessionLaw_serve (s : State) (p : Port) (q : Request) (h : s.sessionLaw) :
    (s.serve p q).1.sessionLaw := by
  generalize ht : (s.serve p q).1 = t
  have he : ServeEffect s p t := ht ▸ serve_effect s p q
  cases he with
  | opened => exact State.sessionLaw_openSession p h
  | closed => exact State.sessionLaw_endSession p h
  | watching _ hopen => exact State.sessionLaw_setSession h (.of_open hopen hopen rfl)
  | noticeRead _ _ hopen => exact State.sessionLaw_setSession h (.of_open hopen hopen rfl)
  | committed hopen =>
    exact sessionLaw_writerKept.arbitrate (State.sessionLaw_enqueue (s := s.setStaging p _) .commit h hopen)
  | aborted hopen =>
    have ⟨hclean, hjobs, hrequester⟩ := (State.sessionLaw_iff _).mp
      (State.sessionLaw_setSession h (p := p)
        (u := { s.session.get p with lastCommit := ⟨.withdrawn, none, none, s.queuedGeneration p⟩ })
        (.of_open hopen hopen rfl))
    refine (State.sessionLaw_iff _).mpr (State.Claims.subset ⟨hclean, hjobs, hrequester⟩ ?_)
    exact List.append_subset.mpr ⟨List.subset_append_left _ _,
      List.Subset.trans List.filter_sublist.subset (List.subset_append_right _ _)⟩
  | overlaid => exact State.sessionLaw_overlayReports _ _ h
  | uncovered => exact State.sessionLaw_removeOverlays _ _ _ h
  | revoking _ hopen => exact sessionLaw_writerKept.arbitrate (State.sessionLaw_enqueue _ h hopen)
  | rebuilding hopen =>
    refine sessionLaw_writerKept.arbitrate ?_
    obtain ⟨hclean, hjobs, -⟩ := h
    refine ⟨hclean, hjobs, fun r hr _ => ?_⟩
    obtain rfl := Option.mem_some_iff.mp hr
    exact ⟨hopen, rfl⟩
  | unchanged => exact h
  | staged => exact h
  | dropped => exact h
  | cleared => exact h
  | counters => exact h

/-- The notices at the end of a REBUILD run reach open sessions alone (R92). -/
theorem State.Claims.postRebuild {s : State} {jobs : List Job} (h : s.Claims jobs) (requester : Option Requester)
    (hrequester : ∀ r ∈ requester, r.notice = true → (s.session.get r.port).isOpen = true) (counts : ReplayCounts) :
    (s.postRebuild requester counts).Claims jobs := by
  cases requester with
  | none => exact h
  | some r =>
    have htold : ∀ u : Session,
        u.Continues (if u.isOpen && !u.watches.isEmpty then u.arrive (.rebuilt r.port) else u) := fun u => by
      split
      next hwatches =>
        rw [Bool.and_eq_true] at hwatches
        exact .arrive hwatches.1 _
      next => exact .refl u
    have hall := h.continues (t :=
      { s with
        session := s.session.map fun _ u =>
          if u.isOpen && !u.watches.isEmpty then u.arrive (.rebuilt r.port) else u })
      (fun p => by rw [PerPort.get_map]; exact htold _) fun _ hr => hr
    simp only [State.postRebuild]
    split
    next hn =>
      refine hall.setSession (.arrive ?_ _)
      rw [PerPort.get_map, (htold _).isOpen]
      exact hrequester r rfl hn
    next => exact hall

/-- The rebuild install keeps the session laws: its notices reach open sessions, and no requester is left (R91). -/
theorem State.sessionLaw_installRebuild {s : State} (h : s.sessionLaw) : s.installRebuild.sessionLaw := by
  have hclaims := (State.sessionLaw_iff s).mp h
  have hclear : State.Claims
      { s.installJournal (replayRun s.array s.defaultsOf) with
        table := installTable KeyRecord.rebuildInstall (replayRun s.array s.defaultsOf) s.table
        overlays := s.overlays.filter fun o =>
          !(installTable KeyRecord.rebuildInstall (replayRun s.array s.defaultsOf) s.table).any fun r =>
            r.key = o.key && r.pinned } (s.active.toList.map ActiveJob.job ++ s.burnQueue) :=
    ⟨hclaims.clean, hclaims.jobs, fun _ hr => (Option.not_mem_none _ hr).elim⟩
  have hposted := hclear.postRebuild s.requester (fun r hr hn => (hclaims.requester r hr hn).1)
    (replayRun s.array s.defaultsOf).counts
  obtain ⟨_, e⟩ := State.installRebuild_frame s
  have hsame : s.installRebuild.active.toList.map ActiveJob.job ++ s.installRebuild.burnQueue =
      s.active.toList.map ActiveJob.job ++ s.burnQueue := by rw [e]
  rw [State.sessionLaw_iff, hsame]
  exact hposted

theorem sessionLaw_kept : Kept State.sessionLaw where
  transport _ _ _ _ h := h
  cell _ _ h := h
  burnEn _ _ h := h
  queue _ _ h := h
  serve := State.sessionLaw_serve
  endSession _ p h := State.sessionLaw_endSession p h
  acknowledge _ h := State.sessionLaw_setSession h (.acknowledge _)
  markSent _ h := State.sessionLaw_setSession h ⟨rfl, rfl, id⟩
  count _ h := h
  expiry _ h := State.sessionLaw_removeOverlays _ _ _ h
  pulse _ taken pause h := sessionLaw_writerKept.arbitrate (sessionLaw_writerKept.burnPulse h taken pause)
  verify s a pause _ ha h :=
    sessionLaw_writerKept.arbitrate (sessionLaw_writerKept.stepVerify (sessionLaw_writerKept.held s a h ha) pause)
  startup _ _ h := sessionLaw_writerKept.resolveGrant ⟨h.1, h.2.1, fun _ hr => (Option.not_mem_none _ hr).elim⟩
  rebuild _ _ h := sessionLaw_writerKept.resolveGrant (State.sessionLaw_installRebuild h)
  reset _ _ := ⟨fun p => by cases p <;> exact Session.closedClean_of_empty rfl rfl rfl rfl,
    fun _ hj => (List.not_mem_nil hj).elim, fun _ hr => (Option.not_mem_none _ hr).elim⟩
  release _ _ _ _ h := ⟨h.1, h.2.1, fun _ hr => (Option.not_mem_none _ hr).elim⟩

/-- Settles O13: the laws are kept by each shared operation, and so by every step; the start-up law is not needed. -/
theorem sessionLawKept : Obligations.SessionLawKept := fun _ _ h _ hs => sessionLaw_kept.step hs h

end Sys2Proof.Machine
end

section
/-! PROOF. Which commands can change the Journal Array and the Settings Table (R15, R22, R24 to R26), and that no step
clears a bit of the array (R26). -/

namespace Sys2Proof.Machine

/-! ### Commands that leave the array and the Settings Table -/

/-- The array and the Settings Table stand as before. -/
def State.persists (s t : State) : Prop := t.array = s.array ∧ t.table = s.table

theorem State.persists.settle {s t : State} (h : s.persists t) : s.persists t.settle := by
  obtain ⟨_, e⟩ := State.settle_frame t
  rw [e]
  exact h

theorem State.persists.arbitrate {s t : State} (h : s.persists t) : s.persists t.arbitrate := by
  obtain ⟨_, e⟩ := State.arbitrate_frame t
  rw [e]
  exact h

theorem State.persists_of_running {s t : State} {f : State → State}
    (h : (Host.Outcome.next (s.running f) : Host.Outcome State Fault Refusal) = .next t)
    (hf : s.persists (f s)) : s.persists t := by
  injection h with h
  subst h
  unfold State.running
  split
  · exact ⟨rfl, rfl⟩
  · exact hf

theorem State.request_persists (s : State) (p : Port) (r : Record) : s.persists (s.request p r) := by
  obtain ⟨_, e⟩ := State.request_frame s p r
  rw [e]
  exact ⟨rfl, rfl⟩

theorem State.windowWrite_persists (s : State) (w : WindowPort) (offset data : Byte) :
    s.persists (s.windowWrite w offset data) := by
  obtain ⟨_, e⟩ := State.windowWrite_frame s w offset data
  rw [e]
  exact ⟨rfl, rfl⟩

theorem State.receiveWhole_persists (s : State) (type : FrameType) (tag code : Byte) (payload : Bytes) :
    s.persists (s.receiveWhole type tag code payload) := by
  obtain ⟨_, e⟩ := State.receiveWhole_frame s type tag code payload
  rw [e]
  exact ⟨rfl, rfl⟩

/-- A command that is none of those named in R15, R22 and R24 to R26 leaves the array and the Settings Table. -/
theorem exec_persists {c : Instr} {s t : State} (h : exec c s = .next t)
    (hpulse : ∀ taken, c ≠ .burnPulse taken) (hverify : c ≠ .verify) (hstartup : c ≠ .startupReplayDone)
    (hrebuild : c ≠ .rebuildInstall) (hreset : ∀ cut, c ≠ .deviceReset cut)
    (hcell : ∀ offset bits, c ≠ .cellBitGain offset bits) : s.persists t := by
  cases c
  case burnPulse taken => exact (hpulse taken rfl).elim
  case verify => exact (hverify rfl).elim
  case startupReplayDone => exact (hstartup rfl).elim
  case rebuildInstall => exact (hrebuild rfl).elim
  case deviceReset cut => exact (hreset cut rfl).elim
  case cellBitGain offset bits => exact (hcell offset bits rfl).elim
  case resetRelease =>
    injection h with h
    subst h
    split <;> exact ⟨rfl, rfl⟩
  case burnEnChange =>
    injection h with h
    subst h
    exact ⟨rfl, rfl⟩
  case heldJournalReadServed p =>
    refine State.persists_of_running h (State.persists.settle ?_)
    obtain ⟨_, e⟩ := State.serveHeldRead_frame s p
    rw [e]
    exact ⟨rfl, rfl⟩
  case answerReady p =>
    refine State.persists_of_running h (State.persists.settle ?_)
    obtain ⟨_, e⟩ := State.answerReady_frame s p
    rw [e]
    exact ⟨rfl, rfl⟩
  case windowPointerSet => exact State.persists_of_running h (State.persists.settle ⟨rfl, rfl⟩)
  case windowByteRead => exact State.persists_of_running h (State.persists.settle ⟨rfl, rfl⟩)
  case req => exact State.persists_of_running h (s.receiveWhole_persists _ _ _ _).settle
  case ack => exact State.persists_of_running h (s.receiveWhole_persists _ _ _ _).settle
  case resetFrame => exact State.persists_of_running h (s.receiveWhole_persists _ _ _ _).settle
  case frameDiscarded bytes ending =>
    refine State.persists_of_running h (State.persists.settle ?_)
    obtain ⟨_, e⟩ := State.receiveBytes_frame s bytes ending
    rw [e]
    exact ⟨rfl, rfl⟩
  case turnaroundComplete =>
    refine State.persists_of_running h (State.persists.settle ?_)
    obtain ⟨_, e⟩ := State.completeTurnaround_frame s
    rw [e]
    exact ⟨rfl, rfl⟩
  case frameSendComplete =>
    refine State.persists_of_running h ?_
    split <;> exact State.persists.settle ⟨rfl, rfl⟩
  case ackTimerExpiry =>
    refine State.persists_of_running h (State.persists.settle ?_)
    obtain ⟨_, e⟩ := State.expireTimer_frame s
    rw [e]
    exact ⟨rfl, rfl⟩
  case linkLoss =>
    refine State.persists_of_running h (State.persists.settle ?_)
    obtain ⟨_, e⟩ := State.holdLow_frame s
    rw [e]
    exact ⟨rfl, rfl⟩
  case linkLineReleased =>
    refine State.persists_of_running h (State.persists.settle ?_)
    unfold State.releaseLine
    split <;> exact ⟨rfl, rfl⟩
  case startMark =>
    refine State.persists_of_running h (State.persists.settle ?_)
    obtain ⟨_, e⟩ := State.takeStartMark_frame s
    rw [e]
    exact ⟨rfl, rfl⟩
  case preambleOrNoise lowNs =>
    refine State.persists_of_running h (State.persists.settle ?_)
    obtain ⟨_, e⟩ := State.takeLow_frame s lowNs
    rw [e]
    exact ⟨rfl, rfl⟩
  case timebaseTick =>
    refine State.persists_of_running h (State.persists.settle ?_)
    obtain ⟨_, e⟩ := State.tick_frame s
    rw [e]
    exact ⟨rfl, rfl⟩
  case overlayExpired =>
    refine State.persists_of_running h (State.persists.settle ?_)
    obtain ⟨_, e⟩ := State.removeOverlays_frame s (·.due) .overlayExpired (·.ownerPort)
    rw [State.expireOverlays, e]
    exact ⟨rfl, rfl⟩
  case go => exact State.persists_of_running h (s.windowWrite_persists _ _ _).settle
  case take => exact State.persists_of_running h (s.windowWrite_persists _ _ _).settle
  case portReset => exact State.persists_of_running h (s.windowWrite_persists _ _ _).settle
  case unknownControlCode => exact State.persists_of_running h (s.windowWrite_persists _ _ _).settle
  case requestAreaWrite => exact State.persists_of_running h (s.windowWrite_persists _ _ _).settle
  case attnEnableWrite => exact State.persists_of_running h (s.windowWrite_persists _ _ _).settle
  case windowWriteIgnored => exact State.persists_of_running h (s.windowWrite_persists _ _ _).settle
  all_goals exact State.persists_of_running h (s.request_persists _ _).settle

/-! ### The array under each operation -/

theorem State.settle_array (s : State) : s.settle.array = s.array := by
  obtain ⟨_, e⟩ := State.settle_frame s
  rw [e]

theorem State.arbitrate_array (s : State) : s.arbitrate.array = s.array := by
  obtain ⟨_, e⟩ := State.arbitrate_frame s
  rw [e]

theorem State.resolveGrant_array (s : State) : s.resolveGrant.array = s.array := by
  obtain ⟨_, e⟩ := State.resolveGrant_frame s
  rw [e]

theorem State.installStartup_array (s : State) : s.installStartup.array = s.array := by
  obtain ⟨_, e⟩ := State.installStartup_frame s
  rw [e]

theorem State.installRebuild_array (s : State) : s.installRebuild.array = s.array := by
  obtain ⟨_, e⟩ := State.installRebuild_frame s
  rw [e]

theorem State.stepVerify_array (s : State) (a : ActiveJob) (pause : Bool) :
    (s.stepVerify a pause).array = s.array := by
  obtain ⟨_, e⟩ := State.stepVerify_frame s a pause
  rw [e]

/-- A pulse changes the array by the pulse at the cell under burn, and by nothing that follows of the job. -/
theorem State.pulse_array (s : State) (a : ActiveJob) (taken : Byte) (pause : Bool) :
    (s.pulse a taken pause).array = s.array ∨
      ∃ offset, (s.pulse a taken pause).array = (s.pulseCell offset taken).array := by
  unfold State.pulse
  split
  · exact .inl rfl
  next offset _ rest _ =>
    dsimp only
    split
    · obtain ⟨_, e⟩ := State.stepBody_frame (s.pulseCell offset taken) a
        (afterPulse (s.pulseCell offset taken).array (a.pulses + 1) a.todo) pause
      rw [e]
      exact .inr ⟨offset, rfl⟩
    · obtain ⟨_, e⟩ := State.stepEntry_frame (s.pulseCell offset taken) a
        (afterPulse (s.pulseCell offset taken).array (a.pulses + 1) a.todo)
      rw [e]
      exact .inr ⟨offset, rfl⟩
    · obtain ⟨_, e⟩ := State.stepSeal_frame (s.pulseCell offset taken) a
        (afterPulse (s.pulseCell offset taken).array (a.pulses + 1) a.todo) pause
      rw [e]
      exact .inr ⟨offset, rfl⟩
    · obtain ⟨_, e⟩ := State.stepVoid_frame (s.pulseCell offset taken) a
        (afterPulse (s.pulseCell offset taken).array (a.pulses + 1) a.todo)
      rw [e]
      exact .inr ⟨offset, rfl⟩
    · obtain ⟨_, e⟩ := State.stepRevoke_frame (s.pulseCell offset taken) a
        (afterPulse (s.pulseCell offset taken).array (a.pulses + 1) a.todo)
      rw [e]
      exact .inr ⟨offset, rfl⟩
    · exact .inl rfl

theorem State.burnPulse_array (s : State) (taken : Byte) (pause : Bool) :
    (s.burnPulse taken pause).array = s.array ∨
      ∃ offset, (s.burnPulse taken pause).array = (s.pulseCell offset taken).array := by
  unfold State.burnPulse
  split
  · exact .inl rfl
  next a _ =>
    split
    · obtain ⟨_, e⟩ := State.testJob_frame s a.job
      rw [e]
      exact .inl rfl
    next whole _ =>
      obtain ⟨_, e⟩ := State.leaveBody_frame s a whole
      rw [e]
      exact .inl rfl
    · obtain ⟨_, e⟩ := State.applyPatch_frame s a pause
      rw [e]
      exact .inl rfl
    · exact .inl (by rw [State.finishCommit, State.endCommit_eq])
    · exact s.pulse_array a taken pause

/-! ### The array only gains bits -/

/-- The second array keeps the canonical form of the first and all its bits (R26). -/
def Memory.gains (m n : Memory) : Prop := m.wf = true → n.wf = true ∧ m.keepsBits n

theorem Memory.gains_refl (m : Memory) : m.gains m := fun h => ⟨h, fun offset => by simp⟩

theorem Memory.gains_setBits (m : Memory) (offset : Nat) (bits : Byte) : m.gains (m.setBits offset bits) :=
  fun h => ⟨m.wf_setBits h offset bits, fun a => m.read_setBits_mono h offset a bits⟩

theorem State.pulseCell_gains (s : State) (offset : Nat) (taken : Byte) :
    s.array.gains (s.pulseCell offset taken).array := by
  unfold State.pulseCell
  split
  · exact s.array.gains_setBits offset taken
  · exact s.array.gains_refl

theorem State.burnPulse_gains (s : State) (taken : Byte) (pause : Bool) :
    s.array.gains (s.burnPulse taken pause).array := by
  obtain h | ⟨offset, h⟩ := s.burnPulse_array taken pause
  · rw [h]
    exact s.array.gains_refl
  · rw [h]
    exact s.pulseCell_gains offset taken

theorem State.cutPulse_gains (s : State) (cut : Byte) : s.array.gains (s.cutPulse cut).array := by
  unfold State.cutPulse
  split
  · exact s.pulseCell_gains _ _
  · exact s.array.gains_refl

/-- The array stands as before but for a pulse, a reset and a defective cell (R26). -/
theorem exec_array {c : Instr} {s t : State} (h : exec c s = .next t) (hpulse : ∀ taken, c ≠ .burnPulse taken)
    (hreset : ∀ cut, c ≠ .deviceReset cut) (hcell : ∀ offset bits, c ≠ .cellBitGain offset bits) :
    t.array = s.array := by
  have hrunning : ∀ f : State → State, (f s).array = s.array →
      (Host.Outcome.next (s.running f) : Host.Outcome State Fault Refusal) = .next t → t.array = s.array := by
    intro f hf hnext
    injection hnext with hnext
    subst hnext
    unfold State.running
    split
    · rfl
    · exact hf
  by_cases hverify : c = .verify
  · subst hverify
    refine hrunning _ ?_ h
    split
    · rw [State.settle_array, State.arbitrate_array, State.stepVerify_array]
    · exact s.settle_array
  by_cases hstartup : c = .startupReplayDone
  · subst hstartup
    refine hrunning _ ?_ h
    split
    · rw [State.settle_array, State.endRun, State.resolveGrant_array, State.installStartup_array]
    · exact s.settle_array
  by_cases hrebuild : c = .rebuildInstall
  · subst hrebuild
    refine hrunning _ ?_ h
    split
    · rw [State.settle_array, State.endRun, State.resolveGrant_array, State.installRebuild_array]
    · exact s.settle_array
  exact (exec_persists h hpulse hverify hstartup hrebuild hreset hcell).1

/-- Whatever a command does, the array only gains bits (R26). -/
theorem exec_gains {c : Instr} {s t : State} (h : exec c s = .next t) : s.array.gains t.array := by
  by_cases hpulse : ∃ taken, c = .burnPulse taken
  · obtain ⟨taken, rfl⟩ := hpulse
    injection h with h
    subst h
    unfold State.running
    split
    · exact s.array.gains_refl
    · rw [State.settle_array, State.arbitrate_array]
      exact s.burnPulse_gains taken s.pauses
  by_cases hreset : ∃ cut, c = .deviceReset cut
  · obtain ⟨cut, rfl⟩ := hreset
    injection h with h
    subst h
    exact s.cutPulse_gains cut
  by_cases hcell : ∃ offset bits, c = .cellBitGain offset bits
  · obtain ⟨offset, bits, rfl⟩ := hcell
    simp only [exec, execCellBitGain] at h
    split at h
    · injection h with h
      subst h
      exact s.array.gains_setBits _ _
    · cases h
  push Not at hpulse hreset hcell
  rw [exec_array h hpulse hreset hcell]
  exact s.array.gains_refl

/-- Settles O5: every other command leaves both, by the frames of the operations it goes through. -/
theorem changedOnlyBy : Obligations.ChangedOnlyBy := by
  refine ⟨fun c s t h hchanged => ?_, fun c s t h hchanged => ?_⟩
  · by_contra hother
    push Not at hother
    exact hchanged (exec_array h hother.1 hother.2.1 hother.2.2)
  · by_contra hother
    push Not at hother
    obtain ⟨hpulse, hverify, hstartup, hrebuild, hreset⟩ := hother
    refine hchanged ?_
    by_cases hcell : ∃ offset bits, c = .cellBitGain offset bits
    · obtain ⟨offset, bits, rfl⟩ := hcell
      simp only [exec, execCellBitGain] at h
      split at h
      · injection h with h
        subst h
        rfl
      · cases h
    · push Not at hcell
      exact (exec_persists h hpulse hverify hstartup hrebuild hreset hcell).2

/-- Settles O4: the command at the front of the queue finds the array as it stands, and the array only gains bits. -/
theorem arrayOnlyGains : Obligations.ArrayOnlyGains := by
  intro s t hwf h
  unfold step at h
  split at h
  · injection h with h
    subst h
    exact s.array.gains_refl hwf
  next c rest _ => exact exec_gains (s := { s with pending := rest }) h hwf

end Sys2Proof.Machine
end

section
/-! PROOF. The Settings Table through every step: one lawful record per catalog key (R15, section 1.3). A patch apply
and the two installs change records, and none changes its key or breaks the law of pending values and pins. -/

namespace Sys2Proof.Machine

/-! ### Key records -/

theorem KeyRecord.resetForm_lawful (key : Nat) : (KeyRecord.resetForm key).lawful := ⟨nofun, rfl⟩

theorem resetTable_key : resetTable.map KeyRecord.key = catalogKeys := by
  rw [resetTable, List.map_map]
  exact List.map_id _

/-- A new journal value keeps the law of R15: none is pending on a LIVE key, and on a DEFERRED key only one that
differs from the active value. -/
theorem KeyRecord.setJournalValue_lawful {r : KeyRecord} {mode : ApplyMode} (value : Bytes) (h : r.lawful)
    (hmode : mode = .deferred → (descriptor? r.key).map Descriptor.applyMode = some .deferred) :
    (r.setJournalValue mode value).lawful := by
  cases mode with
  | live => exact ⟨nofun, h.2⟩
  | deferred =>
    refine ⟨fun v hv => ?_, h.2⟩
    simp only [KeyRecord.setJournalValue, Option.ite_none_left_eq_some, Option.some.injEq] at hv
    obtain ⟨hne, rfl⟩ := hv
    exact ⟨hmode rfl, hne⟩

theorem KeyRecord.setJournalValue_key (r : KeyRecord) (mode : ApplyMode) (value : Bytes) :
    (r.setJournalValue mode value).key = r.key := by cases mode <;> rfl

/-- The provenance bears on no law. -/
theorem KeyRecord.lawful.provenance {r : KeyRecord} (h : r.lawful) (n : Nat) : { r with provenance := n }.lawful := h

theorem KeyRecord.lawful.pin {r : KeyRecord} (h : r.lawful) {pinned : Bool} {pinSeq : Option Nat}
    (hpin : pinSeq.isSome = pinned) : { r with pinned := pinned, pinSeq := pinSeq }.lawful := ⟨h.1, hpin⟩

theorem KeyRecord.applyAction_key (r : KeyRecord) (d : Descriptor) (seq : Nat) (a : Action) :
    (r.applyAction d seq a).key = r.key := by
  have hpin : ∀ u : KeyRecord,
      (if a.pin then { u with pinned := true, pinSeq := some seq } else u).key = u.key := fun u => by
    split <;> rfl
  refine (hpin _).trans ?_
  cases a.op with
  | assign v => exact r.setJournalValue_key d.applyMode v
  | retire => exact r.setJournalValue_key d.applyMode d.default
  | keep => rfl

theorem KeyRecord.applyAction_lawful {r : KeyRecord} {d : Descriptor} (seq : Nat) (a : Action) (h : r.lawful)
    (hd : descriptor? r.key = some d) : (r.applyAction d seq a).lawful := by
  have hmode : d.applyMode = .deferred → (descriptor? r.key).map Descriptor.applyMode = some .deferred := fun hm => by
    rw [hd, Option.map_some, hm]
  have hpinned : ∀ u : KeyRecord, u.lawful →
      (if a.pin then { u with pinned := true, pinSeq := some seq } else u).lawful := fun u hu => by
    split
    · exact hu.pin rfl
    · exact hu
  refine hpinned _ ?_
  cases a.op with
  | assign v => exact (KeyRecord.setJournalValue_lawful v h hmode).provenance seq
  | retire => exact (KeyRecord.setJournalValue_lawful d.default h hmode).provenance seq
  | keep => exact h

/-! ### The table -/

/-- One lawful record per catalog key, in catalog position order. -/
def tableLawful (table : List KeyRecord) : Prop :=
  table.map KeyRecord.key = catalogKeys ∧ ∀ r ∈ table, r.lawful

/-- A change of each record for itself that keeps its key and its law keeps the table's. -/
theorem tableLawful.map {table : List KeyRecord} {f : KeyRecord → KeyRecord} (h : tableLawful table)
    (hkey : ∀ r, (f r).key = r.key) (hlawful : ∀ r, r.lawful → (f r).lawful) : tableLawful (table.map f) := by
  refine ⟨?_, List.forall_mem_map.mpr fun r hr => hlawful r (h.2 r hr)⟩
  rw [List.map_map, ← h.1]
  exact List.map_congr_left fun r _ => hkey r

theorem resetTable_lawful : tableLawful resetTable :=
  ⟨resetTable_key, List.forall_mem_map.mpr fun key _ => KeyRecord.resetForm_lawful key⟩

theorem tableLawful.applyToTable {table : List KeyRecord} (h : tableLawful table) (seq : Nat) (a : Action) :
    tableLawful (applyToTable seq table a) := by
  unfold Machine.applyToTable
  split
  · exact h
  next d hd =>
    refine h.map (fun r => ?_) fun r hr => ?_
    · split
      · exact r.applyAction_key d seq a
      · rfl
    · split
      next hkey => exact KeyRecord.applyAction_lawful seq a hr (hkey ▸ hd)
      next => exact hr

theorem tableLawful.applyActions {table : List KeyRecord} (h : tableLawful table) (seq : Nat) (actions : List Action) :
    tableLawful (actions.foldl (Machine.applyToTable seq) table) := by
  induction actions generalizing table with
  | nil => exact h
  | cons a rest ih => exact ih (h.applyToTable seq a)

/-! ### The working result of a run -/

/-- A scan's result by its slots in turn: what holds of the start and passes from each slot to the next holds at the
end. -/
theorem foldl_range_induction {α : Type} {f : α → Nat → α} {start : α} {used : Nat} (P : Nat → α → Prop)
    (hstart : P 0 start) (hstep : ∀ n x, n < used → P n x → P (n + 1) (f x n)) :
    P used ((List.range used).foldl f start) := by
  induction used with
  | zero => exact hstart
  | succ k ih =>
    rw [List.range_succ, List.foldl_append]
    exact hstep k _ (Nat.lt_succ_self k) (ih fun n x hn => hstep n x (Nat.lt_succ_of_lt hn))

/-- A working key has a pin's number exactly when it is pinned. -/
def WorkingKey.lawful (k : WorkingKey) : Prop := k.pinSeq.isSome = k.pinned

theorem WorkingKey.applyAction_lawful {k : WorkingKey} (seq : Nat) (a : Action) (h : k.lawful) :
    (k.applyAction seq a).lawful := by
  have hpinned : ∀ u : WorkingKey, u.lawful →
      (if a.pin then { u with pinned := true, pinSeq := some seq } else u).lawful := fun u hu => by
    split
    · rfl
    · exact hu
  refine hpinned _ ?_
  cases a.op with
  | assign v => exact h
  | retire => cases descriptor? a.key <;> exact h
  | keep => exact h

theorem applyToWork_lawful {keys : List WorkingKey} (seq : Nat) (actions : List Action) (h : ∀ k ∈ keys, k.lawful) :
    ∀ k ∈ actions.foldl (applyToWork seq) keys, k.lawful := by
  induction actions generalizing keys with
  | nil => exact h
  | cons a rest ih =>
    refine ih (List.forall_mem_map.mpr fun k hk => ?_)
    split
    · exact WorkingKey.applyAction_lawful seq a (h k hk)
    · exact h k hk

theorem replayRun_lawful (m : Memory) {work : WorkingResult} (h : ∀ k ∈ work.keys, k.lawful) :
    ∀ k ∈ (replayRun m work).keys, k.lawful :=
  foldl_range_induction (fun _ (w : WorkingResult) => ∀ k ∈ w.keys, k.lawful) h fun _ _ _ hw => applyToWork_lawful _ _ hw

theorem WorkingResult.defaults_lawful : ∀ k ∈ WorkingResult.defaults.keys, k.lawful :=
  List.forall_mem_map.mpr fun _ _ => rfl

/-- The working result of a run is its DEFAULTS step until it installs (R79). -/
theorem State.defaultsOf_eq {s : State} (h : s.working = none ∨ s.working = some WorkingResult.defaults) :
    s.defaultsOf = WorkingResult.defaults := by
  rw [State.defaultsOf]
  obtain h | h := h <;> rw [h] <;> rfl

/-! ### The installs -/

theorem KeyRecord.startupInstall_lawful {k : WorkingKey} (r : KeyRecord) (h : k.lawful) :
    (r.startupInstall k).lawful := ⟨nofun, h⟩

theorem KeyRecord.rebuildInstall_lawful {k : WorkingKey} {r : KeyRecord} (hr : r.lawful) (h : k.lawful) :
    (r.rebuildInstall k).lawful := by
  refine ⟨(KeyRecord.setJournalValue_lawful k.value hr fun hmode => ?_).1, h⟩
  cases hd : descriptor? r.key with
  | none => rw [hd] at hmode; cases hmode
  | some d => rw [hd] at hmode; exact congrArg some hmode

theorem tableLawful.install {install : KeyRecord → WorkingKey → KeyRecord} {work : WorkingResult}
    {table : List KeyRecord} (h : tableLawful table) (hwork : ∀ k ∈ work.keys, k.lawful)
    (hkey : ∀ r k, (install r k).key = r.key)
    (hlawful : ∀ r k, r.lawful → k.lawful → (install r k).lawful) : tableLawful (installTable install work table) := by
  refine h.map (fun r => ?_) fun r hr => ?_
  · split
    · exact hkey r _
    · rfl
  · split
    next k hk => exact hlawful r k hr (hwork k (List.mem_of_find?_eq_some hk))
    next => exact hr

theorem State.installStartup_lawful {s : State} (h : s.tableLaw) :
    tableLawful s.installStartup.table := by
  refine tableLawful.install ⟨h.1, h.2.1⟩ ?_ (fun _ _ => rfl) fun r _ _ hk => r.startupInstall_lawful hk
  rw [State.defaultsOf_eq h.2.2]
  exact replayRun_lawful s.array WorkingResult.defaults_lawful

theorem State.installRebuild_table (s : State) : s.installRebuild.table =
    installTable KeyRecord.rebuildInstall (replayRun s.array s.defaultsOf) s.table := by
  unfold State.installRebuild State.postRebuild
  cases s.requester with
  | none => rfl
  | some r => dsimp only; split <;> rfl

theorem State.installRebuild_working (s : State) : s.installRebuild.working = none := by
  unfold State.installRebuild State.postRebuild
  cases s.requester with
  | none => rfl
  | some r => dsimp only; split <;> rfl

theorem State.installRebuild_lawful {s : State} (h : s.tableLaw) : tableLawful s.installRebuild.table := by
  rw [State.installRebuild_table, State.defaultsOf_eq h.2.2]
  exact tableLawful.install ⟨h.1, h.2.1⟩ (replayRun_lawful s.array WorkingResult.defaults_lawful)
    (fun r k => r.setJournalValue_key _ k.value) fun _ _ => KeyRecord.rebuildInstall_lawful

/-! ### Every step -/

theorem State.tableLaw_of {s : State} (h : tableLawful s.table)
    (hwork : s.working = none ∨ s.working = some WorkingResult.defaults) : s.tableLaw := ⟨h.1, h.2, hwork⟩

theorem tableLaw_writerKept : WriterKept State.tableLaw fun s _ => s.tableLaw where
  figures _ _ _ _ _ _ _ _ _ _ h := h
  held _ _ h _ := h
  take _ _ _ h _ := h
  burning _ _ h := h
  hold _ _ _ _ h _ _ := h
  apply _ _ seq actions h := State.tableLaw_of (tableLawful.applyActions ⟨h.1, h.2.1⟩ seq actions) h.2.2
  reports _ _ _ h := h
  endCommit s j result seq failIndex h := by rwa [State.endCommit_eq]
  endRevoke s j result target h := by rwa [State.endRevoke_eq]
  free _ h _ := h
  rebuild _ h := ⟨h.1, h.2.1, .inr rfl⟩
  same _ _ h := h

theorem State.tableLaw_endSession {s : State} (p : Port) (h : s.tableLaw) : (s.endSession p).tableLaw := by
  obtain ⟨_, e⟩ := State.endSession_frame s p
  rw [e]
  exact h

theorem State.tableLaw_serve (s : State) (p : Port) (q : Request) (h : s.tableLaw) : (s.serve p q).1.tableLaw := by
  generalize ht : (s.serve p q).1 = t
  have he : ServeEffect s p t := ht ▸ serve_effect s p q
  cases he with
  | opened => exact State.tableLaw_endSession p h
  | closed => exact State.tableLaw_endSession p h
  | committed => exact tableLaw_writerKept.arbitrate h
  | revoking => exact tableLaw_writerKept.arbitrate h
  | rebuilding => exact tableLaw_writerKept.arbitrate h
  | unchanged => exact h
  | watching => exact h
  | noticeRead => exact h
  | staged => exact h
  | dropped => exact h
  | cleared => exact h
  | aborted => exact h
  | overlaid => exact h
  | uncovered => exact h
  | counters => exact h

theorem tableLaw_kept : Kept State.tableLaw where
  transport _ _ _ _ h := h
  cell _ _ h := h
  burnEn _ _ h := h
  queue _ _ h := h
  serve := State.tableLaw_serve
  endSession _ p h := State.tableLaw_endSession p h
  acknowledge _ h := h
  markSent _ h := h
  count _ h := h
  expiry _ h := h
  pulse _ taken pause h := tableLaw_writerKept.arbitrate (tableLaw_writerKept.burnPulse h taken pause)
  verify _ _ pause _ _ h := tableLaw_writerKept.arbitrate (tableLaw_writerKept.stepVerify h pause)
  startup _ _ h :=
    tableLaw_writerKept.resolveGrant (State.tableLaw_of (State.installStartup_lawful h) (.inl rfl))
  rebuild s _ h :=
    tableLaw_writerKept.resolveGrant (State.tableLaw_of (State.installRebuild_lawful h) (.inl s.installRebuild_working))
  reset _ _ := State.tableLaw_of resetTable_lawful (.inl rfl)
  release _ _ _ _ h := ⟨h.1, h.2.1, .inr rfl⟩

/-- Settles O8: the law is kept by each shared operation, and so by every step. -/
theorem tableLawKept : Obligations.TableLawKept := fun _ _ h hs => tableLaw_kept.step hs h

end Sys2Proof.Machine
end

section
/-! PROOF. What a replay run reads of the array (R80 to R85): where the directory ends, where HIGHWATER sets body top,
and the account it gives of every used slot. -/

namespace Sys2Proof.Machine

/-! ### The end of the directory -/

/-- A slot that the directory goes on past: in use and well formed (R80). -/
def Memory.slotSound (m : Memory) (n : Nat) : Prop :=
  (readSlot m n).marker ≠ 0 ∧ (readSlot m n).wellFormed n = true

/-- A slot that is in use and malformed, at which the directory ends (R80). -/
def Memory.slotMalformed (m : Memory) (n : Nat) : Prop :=
  (readSlot m n).marker ≠ 0 ∧ (readSlot m n).wellFormed n = false

/-- What the scan from slot `n` finds: sound slots up to its end, which is the malformed slot it counts, a blank marker
or the last slot it may read. -/
structure DirectoryEnds (m : Memory) (n last used : Nat) (malformed : Bool) : Prop where
  low : n ≤ used
  high : used ≤ last
  whole : malformed = false →
    (∀ k, n ≤ k → k < used → m.slotSound k) ∧ (used = last ∨ (readSlot m used).marker = 0)
  cut : malformed = true →
    n < used ∧ (∀ k, n ≤ k → k < used - 1 → m.slotSound k) ∧ m.slotMalformed (used - 1)

theorem directoryEnd_spec (m : Memory) (n fuel : Nat) :
    DirectoryEnds m n (n + fuel) (directoryEnd m n fuel).1 (directoryEnd m n fuel).2 := by
  induction fuel generalizing n with
  | zero =>
    exact ⟨le_refl n, le_refl n, fun _ => ⟨fun k hk (hused : k < n) => by omega, .inl rfl⟩, nofun⟩
  | succ fuel ih =>
    simp only [directoryEnd]
    split
    next hblank =>
      exact ⟨le_refl n, by omega, fun _ => ⟨fun k _ _ => by omega, .inr hblank⟩, nofun⟩
    next hmarker =>
      split
      next hsound =>
        obtain ⟨low, high, whole, cut⟩ := ih (n + 1)
        have hhere : ∀ k, n ≤ k → (n + 1 ≤ k → m.slotSound k) → m.slotSound k := fun k hk hlater => by
          obtain rfl | hlt := hk.eq_or_lt
          · exact ⟨hmarker, hsound⟩
          · exact hlater hlt
        refine ⟨by omega, by omega, fun hm => ?_, fun hm => ?_⟩
        · obtain ⟨hall, hend⟩ := whole hm
          exact ⟨fun k hk hused => hhere k hk fun h => hall k h hused, by rwa [← Nat.add_assoc, Nat.add_right_comm]⟩
        · obtain ⟨hlow, hall, hend⟩ := cut hm
          exact ⟨by omega, fun k hk hused => hhere k hk fun h => hall k h hused, hend⟩
      next hbad =>
        exact ⟨by omega, by omega, nofun,
          fun _ => ⟨by omega, fun k _ _ => by omega, hmarker, by simpa using hbad⟩⟩

/-! ### HIGHWATER -/

/-- One past the highest byte below the bottom that holds a bit; 0 where there is none. -/
def Memory.cellsTop (m : Memory) (bottom : Nat) : Nat :=
  m.foldl (fun top c => if c.1 < bottom ∧ c.2 ≠ 0 then max top (c.1 + 1) else top) 0

theorem Memory.cellsTop_spec {m : Memory} (hm : m.wf = true) (bottom : Nat) :
    (∀ a, a < bottom ∧ m.read a ≠ 0 → a < m.cellsTop bottom) ∧
    (m.cellsTop bottom = 0 ∨ ∃ a, (a < bottom ∧ m.read a ≠ 0) ∧ m.cellsTop bottom = a + 1) := by
  have hspec := foldl_max_spec m (fun c : Host.Cell => c.1 < bottom ∧ c.2 ≠ 0) (fun c => c.1 + 1) 0
  simp only [decide_eq_true_eq] at hspec
  obtain ⟨-, hbounds, hfound⟩ := hspec
  refine ⟨fun a ⟨hlow, hbits⟩ => ?_, hfound.imp_right fun ⟨c, hc, ⟨hlow, hbits⟩, htop⟩ => ?_⟩
  · have hmem : (a, m.read a) ∈ m := (Memory.mem_iff_read hm a _).mpr ⟨rfl, hbits⟩
    exact Nat.lt_of_succ_le (hbounds _ hmem ⟨hlow, hbits⟩)
  · obtain ⟨hread, -⟩ := (Memory.mem_iff_read hm c.1 c.2).mp hc
    exact ⟨c.1, ⟨hlow, hread ▸ hbits⟩, htop⟩

theorem highwater_eq (m : Memory) (used : Nat) (index : List IndexRecord) :
    highwater m used index = index.foldl (fun top r =>
      if 1 ≤ r.bodyLength ∧ r.bodyOffset + r.bodyLength ≤ directoryBottomOf used then
        max top (r.bodyOffset + r.bodyLength)
      else top) (m.cellsTop (directoryBottomOf used)) := rfl

/-- HIGHWATER is bounded below by the cells and by each recorded range, and is one of these. -/
theorem highwater_spec (m : Memory) (used : Nat) (index : List IndexRecord) :
    m.cellsTop (directoryBottomOf used) ≤ highwater m used index ∧
    (∀ r ∈ index, 1 ≤ r.bodyLength ∧ r.bodyOffset + r.bodyLength ≤ directoryBottomOf used →
      r.bodyOffset + r.bodyLength ≤ highwater m used index) ∧
    (highwater m used index = m.cellsTop (directoryBottomOf used) ∨
      ∃ r ∈ index, (1 ≤ r.bodyLength ∧ r.bodyOffset + r.bodyLength ≤ directoryBottomOf used) ∧
        highwater m used index = r.bodyOffset + r.bodyLength) := by
  have hspec := foldl_max_spec index
    (fun r => 1 ≤ r.bodyLength ∧ r.bodyOffset + r.bodyLength ≤ directoryBottomOf used)
    (fun r => r.bodyOffset + r.bodyLength) (m.cellsTop (directoryBottomOf used))
  simp only [decide_eq_true_eq] at hspec
  rw [highwater_eq]
  exact hspec

/-- Settles O19: the scan by induction over its slots, HIGHWATER by its two running maxima. -/
theorem directoryAndHighwater : Obligations.DirectoryAndHighwater := by
  refine ⟨fun m used malformed hend => ?_, fun m used index hm => ?_⟩
  · have hspec := directoryEnd_spec m 0 256
    rw [hend] at hspec
    obtain ⟨-, high, whole, cut⟩ := hspec
    refine ⟨by omega, fun hmalformed => ?_, fun hmalformed => ?_⟩
    · obtain ⟨hall, hlast⟩ := whole hmalformed
      exact ⟨fun n hn => hall n (Nat.zero_le n) hn, by simpa using hlast⟩
    · obtain ⟨hlow, hall, hlast⟩ := cut hmalformed
      exact ⟨hlow, fun n hn => hall n (Nat.zero_le n) hn, hlast⟩
  · obtain ⟨hcells, hrecorded, hfound⟩ := highwater_spec m used index
    obtain ⟨hbytes, hbyte⟩ := Memory.cellsTop_spec hm (directoryBottomOf used)
    refine ⟨fun a ha => (hbytes a ha).trans_le hcells, fun r ⟨hr, hrange⟩ => hrecorded r hr hrange, ?_⟩
    obtain htop | ⟨r, hr, hrange, htop⟩ := hfound
    · obtain hzero | ⟨a, ha, heq⟩ := hbyte
      · exact .inl (htop.trans hzero)
      · exact .inr (.inl ⟨a, ha, htop.trans heq⟩)
    · exact .inr (.inr ⟨r, ⟨hr, hrange⟩, htop⟩)

end Sys2Proof.Machine
end

section
/-! PROOF. The Key Catalog (R1 to R8): every descriptor, the catalog positions, the tests of form and range; and what
guards and grants mean (R8, R18, R49). -/

namespace Sys2Proof.Machine

/-! ### Rows of the catalog -/

/-- The row describes the key. -/
def CatalogRow.covers (r : CatalogRow) (key : Nat) : Prop := r.first ≤ key ∧ key < r.first + r.count

theorem CatalogRow.covers_iff (r : CatalogRow) (key : Nat) :
    (r.first ≤ key && key < r.first + r.count) = true ↔ r.covers key := by
  simp only [CatalogRow.covers, Bool.and_eq_true, decide_eq_true_eq]

/-- No two rows describe one key. -/
theorem catalogRows_apart : ∀ r ∈ catalogRows, ∀ x ∈ catalogRows,
    r = x ∨ r.first + r.count ≤ x.first ∨ x.first + x.count ≤ r.first := by decide

theorem catalogRow_unique {r x : CatalogRow} {key : Nat} (hr : r ∈ catalogRows) (hx : x ∈ catalogRows)
    (hrk : r.covers key) (hxk : x.covers key) : r = x := by
  obtain ⟨hr_first, hr_last⟩ := hrk
  obtain ⟨hx_first, hx_last⟩ := hxk
  obtain h | h | h := catalogRows_apart r hr x hx
  · exact h
  · omega
  · omega

/-- A key's descriptor is that of the row that describes the key. -/
theorem descriptor?_eq_some_iff {key : Nat} {d : Descriptor} :
    descriptor? key = some d ↔ ∃ r ∈ catalogRows, r.covers key ∧ d = r.descriptor key := by
  unfold descriptor?
  constructor
  · intro h
    split at h
    next r hfind =>
      have hcovers := List.find?_some hfind
      rw [CatalogRow.covers_iff] at hcovers
      exact ⟨r, List.mem_of_find?_eq_some hfind, hcovers, (Option.some.inj h).symm⟩
    next => cases h
  · rintro ⟨r, hr, hcovers, rfl⟩
    split
    next x hfind =>
      have hx := List.find?_some hfind
      rw [CatalogRow.covers_iff] at hx
      rw [catalogRow_unique (List.mem_of_find?_eq_some hfind) hr hx hcovers]
    next hnone =>
      exact (List.find?_eq_none.mp hnone r hr ((r.covers_iff key).mpr hcovers)).elim

theorem descriptor?_of_row {r : CatalogRow} {key : Nat} (hr : r ∈ catalogRows) (hkey : r.covers key) :
    descriptor? key = some (r.descriptor key) := descriptor?_eq_some_iff.mpr ⟨r, hr, hkey, rfl⟩

/-- The catalog keys are the keys with a descriptor (R1). -/
theorem mem_catalogKeys_iff {key : Nat} : key ∈ catalogKeys ↔ (descriptor? key).isSome = true := by
  simp only [catalogKeys, List.mem_flatMap, List.mem_map, List.mem_range, Option.isSome_iff_exists,
    descriptor?_eq_some_iff]
  constructor
  · rintro ⟨r, hr, i, hi, rfl⟩
    exact ⟨_, r, hr, ⟨Nat.le_add_right _ _, by omega⟩, rfl⟩
  · rintro ⟨_, r, hr, ⟨hfirst, hlast⟩, rfl⟩
    exact ⟨r, hr, key - r.first, by omega, by omega⟩

/-- Each catalog position holds the key that its descriptor names (R1). -/
theorem catalogKeys_position : ∀ i : Fin 160, ∃ d : Descriptor,
    (catalogKeys[i.val]?).bind descriptor? = some d ∧ d.position = i.val := by decide +kernel

/-! ### Form and range -/

/-- A value's form is tested by its length: the width of a scalar's, at most 32 bytes in a blob (R2). -/
theorem Descriptor.hasForm_iff {key : Nat} {d : Descriptor} (h : descriptor? key = some d) (v : Bytes) :
    d.hasForm v = true ↔
      match d.kind with
      | .scalar8 => v.length = 1
      | .scalar16 => v.length = 2
      | .scalar32 => v.length = 4
      | .blob => v.length ≤ 32 := by
  have hsize : d.size = d.kind.size := by
    obtain ⟨r, -, -, rfl⟩ := descriptor?_eq_some_iff.mp h
    rfl
  cases hkind : d.kind <;> simp only [Descriptor.hasForm, hsize, hkind, KeyKind.size, decide_eq_true_eq]

theorem natOfBytes_append (bytes : Bytes) (b : Byte) : natOfBytes (bytes ++ [b]) = natOfBytes bytes * 256 + b.toNat := by
  rw [natOfBytes, List.foldl_append]
  rfl

theorem natOfBytes_lt (bytes : Bytes) : natOfBytes bytes < 256 ^ bytes.length := by
  induction bytes using List.reverseRecOn with
  | nil => exact Nat.one_pos
  | append_singleton rest b ih =>
    have hb := b.isLt
    rw [natOfBytes_append, List.length_append, List.length_singleton, pow_succ]
    omega

/-- A bit of a number of bytes is a bit of its last byte, or of the bytes before it. -/
theorem natOfBytes_testBit (bytes : Bytes) (b : Byte) (i : Nat) :
    (natOfBytes (bytes ++ [b])).testBit i = if i < 8 then b.getLsbD i else (natOfBytes bytes).testBit (i - 8) := by
  rw [natOfBytes_append, Nat.mul_comm]
  exact Nat.testBit_two_pow_mul_add (natOfBytes bytes) b.isLt i

/-- A value of a scalar key whose range is that of its width is in range by its form. -/
theorem Descriptor.inRange_of_wide {d : Descriptor} {v : Bytes} (hform : d.hasForm v = true) (hmin : d.minimum = 0)
    (hmax : d.kind ≠ .blob → 256 ^ d.size ≤ d.maximum + 1) (hrule : d.extraRule = .none) : d.inRange v = true := by
  have hlt := natOfBytes_lt v
  unfold Descriptor.inRange
  unfold Descriptor.hasForm at hform
  split
  · rfl
  next hkind =>
    split at hform
    next hblob => exact (hkind hblob).elim
    next =>
      rw [decide_eq_true_eq] at hform
      have := hmax hkind
      rw [hform] at hlt
      simp only [hmin, hrule, Bool.and_true, Bool.and_eq_true, decide_eq_true_eq]
      omega

/-- GRANT_RULE at a value of four bytes: one of the three grant bytes holds class 7 (R8). -/
theorem grantsClassSeven_iff (top b2 b1 b0 : Byte) :
    grantsClassSeven (natOfBytes [top, b2, b1, b0]) = true ↔ ∃ b ∈ [b2, b1, b0], b.getLsbD 7 = true := by
  have h0 := natOfBytes_testBit [top, b2, b1] b0
  have h1 := natOfBytes_testBit [top, b2] b1
  have h2 := natOfBytes_testBit [top] b2
  simp only [List.cons_append, List.nil_append] at h0 h1 h2
  simp only [grantsClassSeven, h0, h1, h2, Bool.or_eq_true, List.exists_mem_cons_iff, List.not_mem_nil]
  norm_num
  tauto

/-! ### Every descriptor -/

/-- The keys stand below 80h, from 100h to 11Ah and from 7F0h to 7F4h. -/
theorem catalogRows_keys : ∀ r ∈ catalogRows, r.first + r.count ≤ 0x80 ∨ (r.first = 0x100 ∧ r.count = 27) ∨
    (0x7F0 ≤ r.first ∧ r.first + r.count ≤ 0x7F5) := by decide

theorem catalogRow_descriptors (key : Nat) :
    let row (position : Nat) (kind : KeyKind) (size keyClass : Nat) (mode : ApplyMode) (overlays : Bool)
        (minimum maximum : Nat) (rule : ExtraRule) (default : Bytes) : Option Descriptor :=
      some
        { key := key, position := position, kind := kind, size := size, keyClass := keyClass, applyMode := mode
          overlayPermitted := overlays, minimum := minimum, maximum := maximum, extraRule := rule
          default := default }
    descriptor? key =
      if key ≤ 0x00F then row key .scalar8 1 0 .live true 0 255 .none [0]
      else if key ≤ 0x01F then row key .scalar8 1 1 .live true 0 255 .none [0]
      else if key ≤ 0x02F then row key .scalar16 2 2 .live true 0 65535 .none [0, 0]
      else if key ≤ 0x03F then row key .scalar16 2 3 .live true 0 65535 .none [0, 0]
      else if key ≤ 0x04F then row key .scalar32 4 4 .live false 0 4294967295 .none [0, 0, 0, 0]
      else if key ≤ 0x05F then row key .scalar32 4 5 .live false 0 4294967295 .none [0, 0, 0, 0]
      else if key ≤ 0x07F then row key .scalar32 4 6 .deferred false 0 4294967295 .none [0, 0, 0, 0]
      else if 0x100 ≤ key ∧ key ≤ 0x11A then row (key - 0x100 + 128) .blob 32 5 .live false 0 0 .none []
      else if key = 0x7F0 then
        row 155 .scalar32 4 7 .live false 0 0x00FFFFFF .grantRule [0x00, 0x0F, 0x7F, 0xFF]
      else if key = 0x7F1 then row 156 .scalar16 2 7 .live false 0 1024 .none [0x01, 0x00]
      else if key = 0x7F2 then row 157 .scalar16 2 7 .live false 0 65535 .none [0, 0]
      else if key = 0x7F3 then row 158 .scalar8 1 7 .deferred false 5 200 .none [20]
      else if key = 0x7F4 then row 159 .scalar8 1 7 .deferred false 0 7 .none [7]
      else none := by
  intro row
  have hrow : ∀ (i : Fin 13) (position : Nat), catalogRows[i].first ≤ key →
      key < catalogRows[i].first + catalogRows[i].count →
      catalogRows[i].position + (key - catalogRows[i].first) = position →
      descriptor? key = some { catalogRows[i].descriptor key with position := position } := by
    intro i position hfirst hlast hposition
    rw [descriptor?_of_row (List.getElem_mem _) ⟨hfirst, hlast⟩, ← hposition]
    rfl
  by_cases h : key ≤ 0x00F
  · rw [if_pos h]
    exact hrow 0 key (Nat.zero_le key) (show key < 0x010 by omega) (show 0 + (key - 0) = key by omega)
  rw [if_neg h]
  by_cases h : key ≤ 0x01F
  · rw [if_pos h]
    exact hrow 1 key (show 0x010 ≤ key by omega) (show key < 0x020 by omega)
      (show 16 + (key - 0x010) = key by omega)
  rw [if_neg h]
  by_cases h : key ≤ 0x02F
  · rw [if_pos h]
    exact hrow 2 key (show 0x020 ≤ key by omega) (show key < 0x030 by omega)
      (show 32 + (key - 0x020) = key by omega)
  rw [if_neg h]
  by_cases h : key ≤ 0x03F
  · rw [if_pos h]
    exact hrow 3 key (show 0x030 ≤ key by omega) (show key < 0x040 by omega)
      (show 48 + (key - 0x030) = key by omega)
  rw [if_neg h]
  by_cases h : key ≤ 0x04F
  · rw [if_pos h]
    exact hrow 4 key (show 0x040 ≤ key by omega) (show key < 0x050 by omega)
      (show 64 + (key - 0x040) = key by omega)
  rw [if_neg h]
  by_cases h : key ≤ 0x05F
  · rw [if_pos h]
    exact hrow 5 key (show 0x050 ≤ key by omega) (show key < 0x060 by omega)
      (show 80 + (key - 0x050) = key by omega)
  rw [if_neg h]
  by_cases h : key ≤ 0x07F
  · rw [if_pos h]
    exact hrow 6 key (show 0x060 ≤ key by omega) (show key < 0x080 by omega)
      (show 96 + (key - 0x060) = key by omega)
  rw [if_neg h]
  by_cases h : 0x100 ≤ key ∧ key ≤ 0x11A
  · rw [if_pos h]
    exact hrow 7 _ (show 0x100 ≤ key by omega) (show key < 0x11B by omega)
      (show 128 + (key - 0x100) = key - 0x100 + 128 by omega)
  rw [if_neg h]
  by_cases h : key = 0x7F0
  · rw [if_pos h]
    exact hrow 8 155 (show 0x7F0 ≤ key by omega) (show key < 0x7F1 by omega)
      (show 155 + (key - 0x7F0) = 155 by omega)
  rw [if_neg h]
  by_cases h : key = 0x7F1
  · rw [if_pos h]
    exact hrow 9 156 (show 0x7F1 ≤ key by omega) (show key < 0x7F2 by omega)
      (show 156 + (key - 0x7F1) = 156 by omega)
  rw [if_neg h]
  by_cases h : key = 0x7F2
  · rw [if_pos h]
    exact hrow 10 157 (show 0x7F2 ≤ key by omega) (show key < 0x7F3 by omega)
      (show 157 + (key - 0x7F2) = 157 by omega)
  rw [if_neg h]
  by_cases h : key = 0x7F3
  · rw [if_pos h]
    exact hrow 11 158 (show 0x7F3 ≤ key by omega) (show key < 0x7F4 by omega)
      (show 158 + (key - 0x7F3) = 158 by omega)
  rw [if_neg h]
  by_cases h : key = 0x7F4
  · rw [if_pos h]
    exact hrow 12 159 (show 0x7F4 ≤ key by omega) (show key < 0x7F5 by omega)
      (show 159 + (key - 0x7F4) = 159 by omega)
  rw [if_neg h]
  refine Option.eq_none_iff_forall_ne_some.mpr fun d hd => ?_
  obtain ⟨r, hr, ⟨hfirst, hlast⟩, -⟩ := descriptor?_eq_some_iff.mp hd
  have := catalogRows_keys r hr
  omega

/-! ### Ranges -/

/-- Every key but four own keys takes every value of its form, by its width or as a blob (Table 1-1, Table 1-2). -/
theorem descriptor?_wide {key : Nat} {d : Descriptor} (h : descriptor? key = some d)
    (hkey : key ≠ 0x7F0 ∧ key ≠ 0x7F1 ∧ key ≠ 0x7F3 ∧ key ≠ 0x7F4) :
    d.minimum = 0 ∧ (d.kind ≠ .blob → 256 ^ d.size ≤ d.maximum + 1) ∧ d.extraRule = .none := by
  obtain ⟨r, hr, hcovers, rfl⟩ := descriptor?_eq_some_iff.mp h
  have hrows : ∀ r ∈ catalogRows, r.count = 1 ∧ r.first ∈ [0x7F0, 0x7F1, 0x7F3, 0x7F4] ∨
      r.minimum = 0 ∧ (r.kind ≠ .blob → 256 ^ r.kind.size ≤ r.maximum + 1) ∧ r.extraRule = .none := by decide
  obtain ⟨hcount, hfirst⟩ | hwide := hrows r hr
  · obtain ⟨hlow, hhigh⟩ := hcovers
    have hown : key = r.first := by omega
    simp only [← hown, List.mem_cons, List.not_mem_nil, or_false] at hfirst
    omega
  · exact hwide

theorem Descriptor.inRange_iff {key : Nat} {d : Descriptor} {v : Bytes} (h : descriptor? key = some d)
    (hform : d.hasForm v = true) :
    d.inRange v = true ↔
      if key = 0x7F0 then natOfBytes v ≤ 0x00FFFFFF ∧ ∃ b ∈ v.drop 1, b.getLsbD 7 = true
      else if key = 0x7F1 then natOfBytes v ≤ 1024
      else if key = 0x7F3 then 5 ≤ natOfBytes v ∧ natOfBytes v ≤ 200
      else if key = 0x7F4 then natOfBytes v ≤ 7
      else True := by
  by_cases hkey : key ≠ 0x7F0 ∧ key ≠ 0x7F1 ∧ key ≠ 0x7F3 ∧ key ≠ 0x7F4
  · obtain ⟨hmin, hmax, hrule⟩ := descriptor?_wide h hkey
    obtain ⟨h0, h1, h3, h4⟩ := hkey
    rw [if_neg h0, if_neg h1, if_neg h3, if_neg h4]
    exact iff_of_true (Descriptor.inRange_of_wide hform hmin hmax hrule) trivial
  · have hd := catalogRow_descriptors key
    rw [h] at hd
    obtain rfl | rfl | rfl | rfl : key = 0x7F0 ∨ key = 0x7F1 ∨ key = 0x7F3 ∨ key = 0x7F4 := by omega
    · obtain rfl := Option.some.inj hd
      have hlength : v.length = 4 := by simpa [Descriptor.hasForm] using hform
      obtain ⟨top, b2, b1, b0, rfl⟩ := List.length_eq_four.mp hlength
      simp [Descriptor.inRange, grantsClassSeven_iff]
    · obtain rfl := Option.some.inj hd
      simp [Descriptor.inRange]
    · obtain rfl := Option.some.inj hd
      simp [Descriptor.inRange]
    · obtain rfl := Option.some.inj hd
      simp [Descriptor.inRange]

/-! ### Guards and grants -/

theorem guardHolds_of_none {s : State} {a : Action} (h : a.guard = .none) : guardHolds s a = true := by
  rw [guardHolds, h]

theorem KeyRecord.journalValue_eq (r : KeyRecord) :
    r.journalValue = match r.pending with | some held => held | none => r.active := by
  rw [KeyRecord.journalValue]
  cases r.pending <;> rfl

/-- A grant is read from the port's own byte of GRANT_MAP (R8). -/
theorem State.holdsClass_of_bytes {s : State} {top b2 b1 b0 : Byte} {c : Nat} (hc : c < 8)
    (h : s.activeValue 0x7F0 = [top, b2, b1, b0]) :
    s.holdsClass .port0 c = b0.getLsbD c ∧ s.holdsClass .port1 c = b1.getLsbD c ∧
      s.holdsClass .port2 c = b2.getLsbD c := by
  have h0 := natOfBytes_testBit [top, b2, b1] b0
  have h1 := natOfBytes_testBit [top, b2] b1
  have h2 := natOfBytes_testBit [top] b2
  simp only [List.cons_append, List.nil_append] at h0 h1 h2
  simp only [State.holdsClass, State.activeNumber, keyGrantMap, h, h0, h1, h2, Port.number]
  refine ⟨?_, ?_, ?_⟩
  · rw [if_pos (by omega), Nat.mul_zero, Nat.zero_add]
  · rw [if_neg (by omega), if_pos (by omega), Nat.mul_one, Nat.add_sub_cancel_left]
  · rw [if_neg (by omega), if_neg (by omega), if_pos (by omega)]
    congr 1
    omega

/-- A position of the catalog holds a key exactly where the key's descriptor names that position. -/
theorem catalogKeys_getElem?_iff (position key : Nat) :
    catalogKeys[position]? = some key ↔ ∃ c, descriptor? key = some c ∧ c.position = position := by
  have hposition : ∀ {i k : Nat}, catalogKeys[i]? = some k → ∃ c, descriptor? k = some c ∧ c.position = i := by
    intro i k hk
    obtain ⟨hi, -⟩ := List.getElem?_eq_some_iff.mp hk
    obtain ⟨c, hc, hpos⟩ := catalogKeys_position ⟨i, hi⟩
    rw [hk] at hc
    exact ⟨c, hc, hpos⟩
  refine ⟨hposition, fun ⟨c, hc, hpos⟩ => ?_⟩
  have hmem : key ∈ catalogKeys := mem_catalogKeys_iff.mpr (Option.isSome_iff_exists.mpr ⟨c, hc⟩)
  obtain ⟨i, hi⟩ := List.mem_iff_getElem?.mp hmem
  obtain ⟨c', hc', hpos'⟩ := hposition hi
  rw [hc] at hc'
  obtain rfl := Option.some.inj hc'
  rwa [← hpos, hpos']

/-- Settles O30: guards by their kinds, grants by the bytes of GRANT_MAP, descriptors by the rows of the catalog. -/
theorem guardsGrantsForms : Obligations.GuardsGrantsForms := by
  refine ⟨⟨fun s a r hr => ?_, fun s a => guardHolds_of_none⟩, fun s top b2 b1 b0 c => State.holdsClass_of_bytes,
    catalogRow_descriptors, ⟨rfl, catalogKeys_getElem?_iff⟩,
    fun key c v hc => ⟨Descriptor.hasForm_iff hc v, Descriptor.inRange_iff hc⟩⟩
  have hrecord : s.keyRecord? a.key = some r := hr
  cases hg : a.guard with
  | none => simp only [guardHolds, hg]
  | equals v =>
    simp only [guardHolds, hg, hrecord, decide_eq_true_eq, KeyRecord.journalValue_eq]
    exact eq_comm
  | untouched => simp only [guardHolds, hg, hrecord, decide_eq_true_eq]

end Sys2Proof.Machine
end

section
/-! PROOF. Bodies (R35, R82, R181): what the writer burns for a list reads back as its actions, and what reads at all is
the body of the actions it reads as. -/

namespace Sys2Proof.Machine

/-! ### Bytes of a field -/

theorem number16_bytes {n : Nat} (h : n < 65536) : number16 (BitVec.ofNat 8 (n / 256)) (BitVec.ofNat 8 n) = n := by
  have := number16_of_word (BitVec.ofNat 16 n)
  rwa [BitVec.toNat_ofNat, Nat.mod_eq_of_lt h] at this

theorem bytes_number16 (high low : Byte) : bytesOfNat 2 (number16 high low) = [high, low] := by
  have hh := high.isLt
  have hl := low.isLt
  rw [bytesOfNat_two, number16]
  congr 2
  · refine BitVec.eq_of_toNat_eq ?_
    rw [BitVec.toNat_ofNat]
    omega
  · refine BitVec.eq_of_toNat_eq ?_
    rw [BitVec.toNat_ofNat]
    omega

theorem byte_of_toNat (b : Byte) : BitVec.ofNat 8 b.toNat = b := by
  rw [BitVec.ofNat_toNat, BitVec.setWidth_eq]

/-- The op byte of an action carries its op code and its pin flag (R180). -/
theorem opByte_code (code : Nat) (pin : Bool) (h : code < 0x80) :
    (BitVec.ofNat 8 (code + if pin then 0x80 else 0)).toNat % 0x80 = code ∧
      (BitVec.ofNat 8 (code + if pin then 0x80 else 0)).getLsbD 7 = pin := by
  rw [← BitVec.testBit_toNat, BitVec.toNat_ofNat, Nat.testBit_eq_decide_div_mod_eq]
  cases pin with
  | false =>
    simp only [Bool.false_eq_true, if_false, decide_eq_false_iff_not]
    omega
  | true =>
    simp only [if_true, decide_eq_true_eq]
    omega

theorem opByte_of_code (b : Byte) : BitVec.ofNat 8 (b.toNat % 0x80 + if b.getLsbD 7 then 0x80 else 0) = b := by
  refine BitVec.eq_of_toNat_eq ?_
  have hb := b.isLt
  rw [← BitVec.testBit_toNat, BitVec.toNat_ofNat, Nat.testBit_eq_decide_div_mod_eq]
  simp only [decide_eq_true_eq]
  split <;> omega

/-! ### Action records -/

/-- The bytes of an action record (R181). -/
def RawAction.bytes (a : RawAction) : Bytes :=
  byteOf (a.op + if a.pin then 0x80 else 0) :: (field16 a.key ++ valueField a.value)

/-- The action record of an action (R35). -/
def Action.raw (a : Action) : RawAction := ⟨a.op.code, a.pin, a.key, a.op.value⟩

theorem Action.raw_bytes (a : Action) : a.raw.bytes = a.bytes := rfl

/-- Action records that a body can carry: an op and a pin flag in one byte, a key in two, a value's length in one. -/
structure RawAction.fits (a : RawAction) : Prop where
  op : a.op < 0x80
  key : a.key < 65536
  value : a.value.length ≤ 0xFF

theorem readActions_bytes {raw : List RawAction} (h : ∀ a ∈ raw, a.fits) :
    readActions raw.length (raw.flatMap RawAction.bytes) = some raw := by
  induction raw with
  | nil => rfl
  | cons a rest ih =>
    obtain ⟨hop, hkey, hvalue⟩ := h a List.mem_cons_self
    have hlength := lengthByte_toNat hvalue
    have hrest := ih fun b hb => h b (List.mem_cons_of_mem a hb)
    obtain ⟨hcode, hpin⟩ := opByte_code a.op a.pin hop
    have hroom : ¬(a.value ++ rest.flatMap RawAction.bytes).length < a.value.length := by simp
    simp only [List.flatMap_cons, RawAction.bytes, byteOf, field16, bytesOfNat_two, valueField, List.cons_append,
      List.nil_append, List.length_cons, readActions, hlength, if_neg hroom, List.drop_left, List.take_left, hrest,
      hcode, hpin, number16_bytes hkey]

theorem readActions_some {count : Nat} {bytes : Bytes} {raw : List RawAction} (h : readActions count bytes = some raw) :
    raw.length = count ∧ bytes = raw.flatMap RawAction.bytes := by
  induction count generalizing bytes raw with
  | zero =>
    cases bytes with
    | nil =>
      obtain rfl := Option.some.inj h
      exact ⟨rfl, rfl⟩
    | cons b rest => cases h
  | succ count ih =>
    match bytes with
    | op :: high :: low :: length :: rest =>
      simp only [readActions] at h
      split at h
      next => cases h
      next hroom =>
        split at h
        next => cases h
        next actions hactions =>
          obtain rfl := Option.some.inj h
          obtain ⟨hcount, hbytes⟩ := ih hactions
          have hlength : (rest.take length.toNat).length = length.toNat := by
            rw [List.length_take]
            omega
          refine ⟨by rw [List.length_cons, hcount], ?_⟩
          simp only [List.flatMap_cons, RawAction.bytes, byteOf, field16, valueField, bytes_number16, hlength,
            opByte_of_code, byte_of_toNat, List.cons_append, List.nil_append, ← hbytes, List.take_append_drop]
    | [] => cases h
    | [_] => cases h
    | [_, _] => cases h
    | [_, _, _] => cases h

/-! ### The actions of a body -/

/-- What checks 4 to 6 of R82 ask of an action: a catalog key, and of an ASSIGN a value of the key's form and range. -/
def Action.sound (a : Action) : Prop :=
  ∃ c, descriptor? a.key = some c ∧ ∀ v, a.op = .assign v → c.hasForm v = true ∧ c.inRange v = true

theorem Descriptor.hasForm_length {key : Nat} {d : Descriptor} {v : Bytes} (h : descriptor? key = some d)
    (hform : d.hasForm v = true) : v.length ≤ 32 := by
  rw [Descriptor.hasForm_iff h] at hform
  split at hform <;> omega

theorem descriptor?_key_lt {key : Nat} {d : Descriptor} (h : descriptor? key = some d) : key < 65536 := by
  obtain ⟨r, hr, ⟨hfirst, hlast⟩, -⟩ := descriptor?_eq_some_iff.mp h
  have := catalogRows_keys r hr
  omega

theorem Action.sound.raw_fits {a : Action} (h : a.sound) : a.raw.fits := by
  obtain ⟨c, hc, hassign⟩ := h
  refine ⟨?_, descriptor?_key_lt hc, ?_⟩
  · cases hop : a.op <;> simp [Action.raw, hop, ActionOp.code]
  · cases hop : a.op with
    | assign v =>
      have := Descriptor.hasForm_length hc (hassign v hop).1
      simp only [Action.raw, hop, ActionOp.value]
      omega
    | retire => simp [Action.raw, hop, ActionOp.value]
    | keep => simp [Action.raw, hop, ActionOp.value]

/-- The action record of a sound action reads as the action without its guard. -/
theorem Action.sound.action?_raw {a : Action} (h : a.sound) : a.raw.action? = some { a with guard := .none } := by
  obtain ⟨c, hc, hassign⟩ := h
  obtain ⟨key, op, pin, guard⟩ := a
  have hkey : descriptor? key = some c := hc
  cases op with
  | assign v =>
    obtain ⟨hform, hrange⟩ := hassign v rfl
    simp [Action.raw, RawAction.action?, ActionOp.code, ActionOp.value, hkey, hform, hrange]
  | retire => simp [Action.raw, RawAction.action?, ActionOp.code, ActionOp.value, hkey]
  | keep => simp [Action.raw, RawAction.action?, ActionOp.code, ActionOp.value, hkey]

/-- What an action record reads as is a sound action without a guard, with the record's bytes. -/
theorem RawAction.action?_some {r : RawAction} {a : Action} (h : r.action? = some a) :
    a.sound ∧ a.guard = .none ∧ a.raw = r := by
  unfold RawAction.action? at h
  split at h
  next => cases h
  next d hd =>
    split at h
    next hop =>
      split at h
      next hvalue =>
        obtain rfl := Option.some.inj h
        rw [Bool.and_eq_true] at hvalue
        refine ⟨⟨d, hd, fun v hv => ?_⟩, rfl, ?_⟩
        · obtain rfl := ActionOp.assign.inj hv
          exact hvalue
        · cases r
          cases hop
          rfl
      next => cases h
    next =>
      split at h
      next hop =>
        obtain rfl := Option.some.inj h
        refine ⟨⟨d, hd, nofun⟩, rfl, ?_⟩
        cases r
        obtain ⟨rfl, rfl⟩ := hop
        rfl
      next =>
        split at h
        next hop =>
          obtain rfl := Option.some.inj h
          refine ⟨⟨d, hd, nofun⟩, rfl, ?_⟩
          cases r
          obtain ⟨rfl, rfl⟩ := hop
          rfl
        next => cases h

theorem mapM_action?_raw {actions : List Action} (h : ∀ a ∈ actions, a.sound) :
    (actions.map Action.raw).mapM RawAction.action? = some (actions.map fun a => { a with guard := .none }) := by
  induction actions with
  | nil => rfl
  | cons a rest ih =>
    rw [List.map_cons, List.mapM_cons, (h a List.mem_cons_self).action?_raw,
      ih fun b hb => h b (List.mem_cons_of_mem a hb)]
    rfl

theorem mapM_action?_some {raw : List RawAction} {actions : List Action}
    (h : raw.mapM RawAction.action? = some actions) :
    actions.map Action.raw = raw ∧ ∀ a ∈ actions, a.sound ∧ a.guard = .none := by
  induction raw generalizing actions with
  | nil =>
    obtain rfl := Option.some.inj h
    exact ⟨rfl, nofun⟩
  | cons r rest ih =>
    simp only [List.mapM_cons, Option.pure_def, Option.bind_eq_bind, Option.bind_eq_some_iff, Option.some.injEq] at h
    obtain ⟨a, ha, others, hothers, rfl⟩ := h
    obtain ⟨hsound, hguard, hraw⟩ := RawAction.action?_some ha
    obtain ⟨hmap, hall⟩ := ih hothers
    exact ⟨by rw [List.map_cons, hraw, hmap], List.forall_mem_cons.mpr ⟨⟨hsound, hguard⟩, hall⟩⟩

theorem bodyBytes_eq_raw (actions : List Action) :
    bodyBytes actions = byteOf actions.length :: (actions.map Action.raw).flatMap RawAction.bytes := by
  rw [bodyBytes, List.flatMap_map]
  rfl

/-- The body of a list that fits reads back as its actions without their guards. -/
theorem readBody_bodyBytes {actions : List Action} (hlow : 1 ≤ actions.length) (hhigh : actions.length ≤ 24)
    (hkeys : (actions.map Action.key).Nodup) (h : ∀ a ∈ actions, a.sound) :
    readBody actions.length (bodyBytes actions) = some (actions.map fun a => { a with guard := .none }) := by
  have hcount : (byteOf actions.length).toNat = actions.length := by
    rw [byteOf, BitVec.toNat_ofNat]
    omega
  have hread : readActions actions.length ((actions.map Action.raw).flatMap RawAction.bytes) =
      some (actions.map Action.raw) := by
    have := readActions_bytes (List.forall_mem_map.mpr fun a ha => (h a ha).raw_fits)
    rwa [List.length_map] at this
  have hdistinct : distinctKeys (actions.map fun a => { a with guard := Guard.none }) = true := by
    rw [distinctKeys, List.map_map, decide_eq_true_eq]
    exact hkeys
  rw [bodyBytes_eq_raw]
  simp only [readBody, hcount, hread, mapM_action?_raw h, hdistinct, if_true, and_true, hlow, hhigh,
    Config.maxActions]

/-- A body that reads is the body of the actions it reads as. -/
theorem readBody_some {count : Nat} {body : Bytes} {actions : List Action} (h : readBody count body = some actions) :
    1 ≤ count ∧ count ≤ 24 ∧ actions.length = count ∧ body = bodyBytes actions ∧
      (actions.map Action.key).Nodup ∧ ∀ a ∈ actions, a.sound ∧ a.guard = .none := by
  unfold readBody at h
  split at h
  next => cases h
  next c rest =>
    split at h
    next hcount =>
      obtain ⟨hlow, hhigh, hc⟩ := hcount
      split at h
      next => cases h
      next raw hraw =>
        split at h
        next => cases h
        next read hread =>
          split at h
          next hdistinct =>
            obtain rfl := Option.some.inj h
            obtain ⟨hlength, rfl⟩ := readActions_some hraw
            obtain ⟨hmap, hall⟩ := mapM_action?_some hread
            have hactions : read.length = count := by rw [← hlength, ← hmap, List.length_map]
            refine ⟨hlow, hhigh, hactions, ?_, by simpa [distinctKeys] using hdistinct, hall⟩
            rw [bodyBytes_eq_raw, hmap, hactions, ← hc, byteOf, byte_of_toNat]
          next => cases h
    next => cases h

theorem Action.bytes_eq (a : Action) :
    a.bytes = BitVec.ofNat 8 (a.op.code + if a.pin then 0x80 else 0) ::
      [BitVec.ofNat 8 (a.key / 256), BitVec.ofNat 8 a.key, BitVec.ofNat 8 a.op.value.length] ++ a.op.value := by
  rw [Action.bytes, field16, bytesOfNat_two]
  rfl

/-- Settles O17: action records written and read back, one by one. -/
theorem bodiesRead : Obligations.BodiesRead := by
  refine ⟨fun actions => ?_, fun actions hlow hhigh hkeys h => readBody_bodyBytes hlow hhigh hkeys h,
    fun count body actions h => ?_⟩
  · rw [bodyBytes, byteOf]
    congr 1
    refine List.flatMap_congr fun a _ => ?_
    rw [a.bytes_eq]
    cases a.op <;> rfl
  · obtain ⟨hlow, hhigh, hlength, hbody, hkeys, hall⟩ := readBody_some h
    exact ⟨hlow, hhigh, hlength, hbody, hkeys, fun a ha => ⟨(hall a ha).2, (hall a ha).1⟩⟩

end Sys2Proof.Machine
end

section
/-! PROOF. A replay run's account of the directory (R80 to R84, R88): a record, a class and a count for every used slot,
and the settings image of the SEALED ones. -/

namespace Sys2Proof.Machine

/-! ### The settings image -/

/-- The working key that holds what a key record holds (R79). -/
def KeyRecord.working (r : KeyRecord) : WorkingKey := ⟨r.key, r.active, r.pinned, r.pinSeq, r.provenance⟩

theorem KeyRecord.replayAction_key (r : KeyRecord) (seq : Nat) (a : Action) : (r.replayAction seq a).key = r.key := by
  have hpin : ∀ u : KeyRecord,
      (if a.pin then { u with pinned := true, pinSeq := some seq } else u).key = u.key := fun u => by
    split <;> rfl
  unfold KeyRecord.replayAction
  split
  · refine (hpin _).trans ?_
    cases a.op <;> rfl
  · rfl

/-- A record after the actions of one entry, in order. -/
def KeyRecord.replayEntry (r : KeyRecord) (e : Nat × List Action) : KeyRecord :=
  e.2.foldl (fun r a => r.replayAction e.1 a) r

theorem KeyRecord.replayed_eq (key : Nat) (entries : List (Nat × List Action)) :
    KeyRecord.replayed key entries = entries.foldl KeyRecord.replayEntry (KeyRecord.resetForm key) := rfl

theorem KeyRecord.replayed_append (key : Nat) (entries : List (Nat × List Action)) (e : Nat × List Action) :
    KeyRecord.replayed key (entries ++ [e]) = (KeyRecord.replayed key entries).replayEntry e := by
  rw [KeyRecord.replayed_eq, List.foldl_append]
  rfl

theorem KeyRecord.replayEntry_key (r : KeyRecord) (e : Nat × List Action) : (r.replayEntry e).key = r.key := by
  unfold KeyRecord.replayEntry
  induction e.2 generalizing r with
  | nil => rfl
  | cons a rest ih => exact (ih _).trans (r.replayAction_key e.1 a)

theorem KeyRecord.replayed_key (key : Nat) (entries : List (Nat × List Action)) :
    (KeyRecord.replayed key entries).key = key := by
  induction entries using List.reverseRecOn with
  | nil => rfl
  | append_singleton rest e ih => rw [KeyRecord.replayed_append, KeyRecord.replayEntry_key, ih]

theorem KeyRecord.replayAction_pending (r : KeyRecord) (seq : Nat) (a : Action) :
    (r.replayAction seq a).pending = r.pending := by
  have hpin : ∀ u : KeyRecord,
      (if a.pin then { u with pinned := true, pinSeq := some seq } else u).pending = u.pending := fun u => by
    split <;> rfl
  unfold KeyRecord.replayAction
  split
  · refine (hpin _).trans ?_
    cases a.op <;> rfl
  · rfl

/-- No action of a replay leaves a pending value (R87). -/
theorem KeyRecord.replayed_pending (key : Nat) (entries : List (Nat × List Action)) :
    (KeyRecord.replayed key entries).pending = none := by
  have hentry : ∀ (r : KeyRecord) (e : Nat × List Action), (r.replayEntry e).pending = r.pending := fun r e => by
    unfold KeyRecord.replayEntry
    induction e.2 generalizing r with
    | nil => rfl
    | cons a rest ih => exact (ih _).trans (r.replayAction_pending e.1 a)
  induction entries using List.reverseRecOn with
  | nil => rfl
  | append_singleton rest e ih => rw [KeyRecord.replayed_append, hentry, ih]

theorem KeyRecord.replayAction_pinned (r : KeyRecord) (seq : Nat) (a : Action) :
    (r.replayAction seq a).pinned = true ↔ r.pinned = true ∨ a.pin = true ∧ a.key = r.key := by
  unfold KeyRecord.replayAction
  split
  next hkey =>
    cases hp : a.pin with
    | true => simp [hkey]
    | false => cases a.op <;> simp [hkey]
  next hkey => simp [hkey]

theorem KeyRecord.replayEntry_pinned (r : KeyRecord) (e : Nat × List Action) :
    (r.replayEntry e).pinned = true ↔ r.pinned = true ∨ ∃ x ∈ e.2, x.pin = true ∧ x.key = r.key := by
  unfold KeyRecord.replayEntry
  induction e.2 generalizing r with
  | nil => simp
  | cons a rest ih =>
    rw [List.foldl_cons, ih, KeyRecord.replayAction_pinned, KeyRecord.replayAction_key, List.exists_mem_cons_iff,
      or_assoc]

/-- A key is pinned in the settings image exactly where an action of an entry pins it (R83). -/
theorem KeyRecord.replayed_pinned (key : Nat) (entries : List (Nat × List Action)) :
    (KeyRecord.replayed key entries).pinned = true ↔ ∃ e ∈ entries, ∃ x ∈ e.2, x.pin = true ∧ x.key = key := by
  induction entries using List.reverseRecOn with
  | nil => simp [KeyRecord.replayed_eq, KeyRecord.resetForm]
  | append_singleton rest e ih =>
    rw [KeyRecord.replayed_append, KeyRecord.replayEntry_pinned, ih, KeyRecord.replayed_key]
    simp only [List.mem_append, List.mem_singleton, or_and_right, exists_or, exists_eq_left]

/-! ### The working keys of a run -/

/-- The working keys for a settings image: one for each catalog key (R79). -/
def imageKeys (entries : List (Nat × List Action)) : List WorkingKey :=
  catalogKeys.map fun key => (KeyRecord.replayed key entries).working

theorem imageKeys_nil : imageKeys [] = WorkingResult.defaults.keys := by
  rw [imageKeys, WorkingResult.defaults]
  exact List.map_congr_left fun _ _ => rfl

/-- An action at a working key of the catalog does what it does at the key's record (R83). -/
theorem working_applyAction {r : KeyRecord} {a : Action} (seq : Nat) (hr : (descriptor? r.key).isSome = true) :
    (if r.key = a.key then r.working.applyAction seq a else r.working) = (r.replayAction seq a).working := by
  have hpin : ∀ (u : KeyRecord) (k : WorkingKey), k = u.working →
      (if a.pin then { k with pinned := true, pinSeq := some seq } else k) =
        (if a.pin then { u with pinned := true, pinSeq := some seq } else u).working := fun u k hk => by
    subst hk
    split <;> rfl
  unfold KeyRecord.replayAction
  by_cases hkey : a.key = r.key
  · rw [if_pos hkey, if_pos hkey.symm]
    refine hpin _ _ ?_
    cases a.op with
    | assign v => rfl
    | keep => rfl
    | retire =>
      obtain ⟨d, hd⟩ := Option.isSome_iff_exists.mp hr
      simp only [hkey, hd, KeyRecord.resetForm]
      rfl
  · rw [if_neg hkey, if_neg (Ne.symm hkey)]

theorem applyToWork_records (records : Nat → KeyRecord) (seq : Nat) (a : Action)
    (hkey : ∀ key, (records key).key = key) :
    applyToWork seq (catalogKeys.map fun key => (records key).working) a =
      catalogKeys.map fun key => ((records key).replayAction seq a).working := by
  rw [applyToWork, List.map_map]
  refine List.map_congr_left fun key hmem => working_applyAction seq ?_
  rw [hkey]
  exact mem_catalogKeys_iff.mp hmem

/-- The actions of an entry applied to the working keys of an image give those of the image with the entry. -/
theorem applyToWork_image (entries : List (Nat × List Action)) (seq : Nat) (actions : List Action) :
    actions.foldl (applyToWork seq) (imageKeys entries) = imageKeys (entries ++ [(seq, actions)]) := by
  have hall : ∀ records : Nat → KeyRecord, (∀ key, (records key).key = key) →
      actions.foldl (applyToWork seq) (catalogKeys.map fun key => (records key).working) =
        catalogKeys.map fun key => ((records key).replayEntry (seq, actions)).working := by
    induction actions with
    | nil => exact fun _ _ => rfl
    | cons a rest ih =>
      intro records hkey
      rw [List.foldl_cons, applyToWork_records records seq a hkey]
      exact ih (fun key => (records key).replayAction seq a) fun key => ((records key).replayAction_key seq a).trans (hkey key)
  simp only [imageKeys, KeyRecord.replayed_append]
  exact hall _ fun key => KeyRecord.replayed_key key entries

theorem pinnedInWork_image {entries : List (Nat × List Action)} {key : Nat} (h : key ∈ catalogKeys) :
    pinnedInWork (imageKeys entries) key = true ↔ ∃ e ∈ entries, ∃ x ∈ e.2, x.pin = true ∧ x.key = key := by
  have hwork : ∀ k, (KeyRecord.replayed k entries).working.key = k := fun k => KeyRecord.replayed_key k entries
  simp only [pinnedInWork, imageKeys, List.any_map, List.any_eq_true, Function.comp_apply, Bool.and_eq_true,
    decide_eq_true_eq, hwork, ← KeyRecord.replayed_pinned]
  exact ⟨fun ⟨_, _, hk, hpinned⟩ => hk ▸ hpinned, fun hpinned => ⟨key, h, rfl, hpinned⟩⟩

/-! ### The class of a slot -/

/-- The class R81 and R82 give slot `n` of a directory of `used` slots, with the SEALED entries before it. -/
def slotClass (m : Memory) (used n : Nat) (earlier : List (Nat × List Action)) : EntryState :=
  let f := readSlot m n
  let body := m.readRange f.bodyOffset f.bodyLength
  if f.wellFormed n = false then .corrupt
  else if f.sealByte ≠ 0xA5 then .torn
  else if f.kind = 0xFF then .void
  else if f.revokeByte ≠ 0 then .revoked
  else if 0x3000 - 16 * used < f.bodyOffset + f.bodyLength ∨ f.bodyLength < 5 ∨ 512 < f.bodyLength then .corrupt
  else if bytesOfNat 4 (crc32 body).toNat ≠ f.crc then .corrupt
  else
    match readBody f.count body with
    | none => .corrupt
    | some actions =>
      if ∃ a ∈ actions, ∃ e ∈ earlier, ∃ x ∈ e.2, x.pin = true ∧ x.key = a.key then .corrupt
      else .sealed

theorem soundActions_some {m : Memory} {bottom : Nat} {keys : List WorkingKey} {f : SlotFields} {actions : List Action}
    (h : soundActions m bottom keys f = some actions) :
    readBody f.count (m.readRange f.bodyOffset f.bodyLength) = some actions := by
  unfold soundActions at h
  dsimp only at h
  split at h
  · split at h
    · split at h
      next => cases h
      next read hread =>
        split at h
        next => cases h
        next =>
          obtain rfl := Option.some.inj h
          exact hread
    · cases h
  · cases h

/-- The classification with the working keys of the SEALED entries before gives the slot's class. -/
theorem classify_image (m : Memory) (used n : Nat) (earlier : List (Nat × List Action))
    (hsound : (readSlot m n).wellFormed n = true) :
    (classify m (directoryBottomOf used) (imageKeys earlier) (readSlot m n)).1 = slotClass m used n earlier := by
  have hpins : ∀ actions, readBody (readSlot m n).count
      (m.readRange (readSlot m n).bodyOffset (readSlot m n).bodyLength) = some actions →
      (actions.any (pinnedInWork (imageKeys earlier) ·.key) = true ↔
        ∃ a ∈ actions, ∃ e ∈ earlier, ∃ x ∈ e.2, x.pin = true ∧ x.key = a.key) := by
    intro actions hread
    obtain ⟨-, -, -, -, -, hall⟩ := readBody_some hread
    rw [List.any_eq_true]
    refine exists_congr fun a => and_congr_right fun ha => pinnedInWork_image (mem_catalogKeys_iff.mpr ?_)
    obtain ⟨⟨c, hc, -⟩, -⟩ := hall a ha
    exact Option.isSome_iff_exists.mpr ⟨c, hc⟩
  unfold classify slotClass soundActions
  dsimp only
  generalize readSlot m n = f at hsound hpins ⊢
  have hwell : ¬f.wellFormed n = false := by rw [hsound]; decide
  have hbottom : directoryBottomOf used = 0x3000 - 16 * used := rfl
  have hmax : Config.maxBody = 512 := rfl
  rw [if_neg hwell]
  by_cases hseal : f.sealByte ≠ 0xA5
  · rw [if_pos hseal, if_pos hseal]
  rw [if_neg hseal, if_neg hseal]
  by_cases hvoid : f.kind = 0xFF
  · rw [if_pos hvoid, if_pos hvoid]
  rw [if_neg hvoid, if_neg hvoid]
  by_cases hrevoked : f.revokeByte ≠ 0
  · rw [if_pos hrevoked, if_pos hrevoked]
  rw [if_neg hrevoked, if_neg hrevoked]
  by_cases hrange : 0x3000 - 16 * used < f.bodyOffset + f.bodyLength ∨ f.bodyLength < 5 ∨ 512 < f.bodyLength
  · rw [if_pos hrange, if_neg (by omega)]
  rw [if_neg hrange, if_pos (by omega)]
  by_cases hcrc : bytesOfNat 4 (crc32 (m.readRange f.bodyOffset f.bodyLength)).toNat = f.crc
  · rw [if_pos hcrc, if_neg (not_not_intro hcrc)]
    cases hread : readBody f.count (m.readRange f.bodyOffset f.bodyLength) with
    | none => rfl
    | some actions =>
      dsimp only
      by_cases hpinned : actions.any (pinnedInWork (imageKeys earlier) ·.key) = true
      · rw [if_pos hpinned, if_pos ((hpins actions hread).mp hpinned)]
      · rw [if_neg hpinned, if_neg (mt (hpins actions hread).mpr hpinned)]
  · rw [if_neg hcrc, if_pos hcrc]

/-! ### The account of a run -/

/-- The counts of the records of an index (R88). -/
def countsOf (index : List IndexRecord) : ReplayCounts where
  total := index.length
  applied := index.countP (·.state = .sealed)
  revoked := index.countP (·.state = .revoked)
  void := index.countP (·.state = .void)
  torn := index.countP (·.state = .torn)
  corrupt := index.countP (·.state = .corrupt)

theorem countsOf_append (index : List IndexRecord) (r : IndexRecord) :
    countsOf (index ++ [r]) = (countsOf index).add r.state := by
  cases hstate : r.state <;>
    simp [countsOf, ReplayCounts.add, List.countP_append, hstate]

/-- Every record is of one of the five classes. -/
theorem countsOf_balanced (index : List IndexRecord) : (countsOf index).balanced := by
  induction index using List.reverseRecOn with
  | nil => rfl
  | append_singleton rest r ih =>
    rw [countsOf_append]
    unfold ReplayCounts.balanced at ih ⊢
    cases r.state <;> simp only [ReplayCounts.add] <;> omega

/-- What a scan has made of the first `n` slots of a directory of `used` slots (R81 to R84, R88). -/
structure ScanAccounts (m : Memory) (used n : Nat) (work : WorkingResult) : Prop where
  seqs : work.index.map IndexRecord.seq = (List.range n).map (· + 1)
  fields : ∀ r ∈ work.index, r = (readSlot m (r.seq - 1)).record (r.seq - 1) r.state
  counts : work.counts = countsOf work.index
  keys : work.keys = imageKeys (sealedEntries m work.index)
  classes : ∀ k r, work.index[k]? = some r → r.state = slotClass m used k (sealedEntries m (work.index.take k))

theorem sealedEntries_append (m : Memory) (index : List IndexRecord) (r : IndexRecord) :
    sealedEntries m (index ++ [r]) = sealedEntries m index ++ sealedEntries m [r] := List.filterMap_append

/-- The class a scan gives slot `n`, with the actions it applies. -/
def slotTaken (m : Memory) (used n : Nat) (malformed : Bool) (keys : List WorkingKey) : EntryState × List Action :=
  if malformed then (.corrupt, []) else classify m (directoryBottomOf used) keys (readSlot m n)

/-- The actions a scan applies at a slot are those of its entry where it is SEALED, and none otherwise. -/
theorem slotTaken_actions (m : Memory) (used n : Nat) (malformed : Bool) (keys : List WorkingKey) :
    sealedEntries m [(readSlot m n).record n (slotTaken m used n malformed keys).1] =
        [(n + 1, (slotTaken m used n malformed keys).2)] ∨
      (sealedEntries m [(readSlot m n).record n (slotTaken m used n malformed keys).1] = [] ∧
        (slotTaken m used n malformed keys).2 = []) := by
  unfold slotTaken classify
  split
  · exact .inr ⟨rfl, rfl⟩
  · split
    · exact .inr ⟨rfl, rfl⟩
    · split
      · exact .inr ⟨rfl, rfl⟩
      · split
        · exact .inr ⟨rfl, rfl⟩
        · split
          next => exact .inr ⟨rfl, rfl⟩
          next actions hactions =>
            refine .inl ?_
            simp only [sealedEntries, SlotFields.record, soundActions_some hactions, List.filterMap_cons,
              List.filterMap_nil, if_true, Option.map_some]

theorem slotTaken_class {m : Memory} {used n : Nat} {malformed : Bool} (earlier : List (Nat × List Action))
    (h : malformed = !(readSlot m n).wellFormed n) :
    (slotTaken m used n malformed (imageKeys earlier)).1 = slotClass m used n earlier := by
  unfold slotTaken
  cases hwell : (readSlot m n).wellFormed n with
  | true =>
    rw [hwell] at h
    subst h
    exact classify_image m used n earlier hwell
  | false =>
    rw [hwell] at h
    subst h
    exact (if_pos hwell).symm

theorem ScanAccounts.takeSlot {m : Memory} {used n : Nat} {work : WorkingResult} {malformed : Bool}
    (h : ScanAccounts m used n work) (hmalformed : malformed = !(readSlot m n).wellFormed n) :
    ScanAccounts m used (n + 1) (work.takeSlot m (directoryBottomOf used) n malformed) := by
  obtain ⟨seqs, fields, counts, keys, classes⟩ := h
  have hlength : work.index.length = n := by
    have := congrArg List.length seqs
    simpa using this
  let taken := slotTaken m used n malformed work.keys
  have htaken : work.takeSlot m (directoryBottomOf used) n malformed =
      { work with
        keys := taken.2.foldl (applyToWork (n + 1)) work.keys
        index := work.index ++ [(readSlot m n).record n taken.1]
        counts := work.counts.add taken.1 } := rfl
  rw [htaken]
  refine ⟨?_, ?_, ?_, ?_, ?_⟩
  · rw [List.map_append, seqs, List.range_succ, List.map_append]
    rfl
  · intro r hr
    obtain hr | hr := List.mem_append.mp hr
    · exact fields r hr
    · obtain rfl := List.mem_singleton.mp hr
      rfl
  · rw [countsOf_append, ← counts]
    rfl
  · dsimp only
    rw [sealedEntries_append]
    obtain hentry | ⟨hnone, hactions⟩ := slotTaken_actions m used n malformed work.keys
    · rw [hentry]
      show List.foldl _ _ (slotTaken m used n malformed work.keys).2 = _
      rw [keys]
      exact applyToWork_image _ _ _
    · rw [hnone, List.append_nil, ← keys]
      show List.foldl _ _ (slotTaken m used n malformed work.keys).2 = _
      rw [hactions]
      rfl
  · intro k r hk
    dsimp only at hk ⊢
    rw [List.getElem?_append] at hk
    split at hk
    next hlt =>
      rw [List.take_append_of_le_length hlt.le]
      exact classes k r hk
    next hge =>
      rw [List.getElem?_singleton] at hk
      split at hk
      next hzero =>
        obtain rfl : k = n := by omega
        obtain rfl := Option.some.inj hk
        rw [List.take_append_of_le_length hlength.ge, List.take_of_length_le hlength.le]
        show (slotTaken m used k malformed work.keys).1 = _
        rw [keys]
        exact slotTaken_class _ hmalformed
      next => cases hk

/-- The last slot a scan marks malformed is the one that is. -/
theorem directoryEnd_malformed {m : Memory} {n : Nat} (h : n < (directoryEnd m 0 256).1) :
    ((directoryEnd m 0 256).2 && decide (n + 1 = (directoryEnd m 0 256).1)) = !(readSlot m n).wellFormed n := by
  obtain ⟨-, -, whole, cut⟩ := directoryEnd_spec m 0 256
  cases hmalformed : (directoryEnd m 0 256).2 with
  | false =>
    obtain ⟨-, hsound⟩ := (whole hmalformed).1 n (Nat.zero_le n) h
    rw [hsound]
    rfl
  | true =>
    obtain ⟨hlow, hsound, -, hbad⟩ := cut hmalformed
    by_cases hlast : n + 1 = (directoryEnd m 0 256).1
    · rw [← hlast, Nat.add_sub_cancel] at hbad
      rw [hbad, decide_eq_true hlast]
      rfl
    · rw [(hsound n (Nat.zero_le n) (by omega)).2, decide_eq_false hlast]
      rfl

/-- The account of a whole scan from the DEFAULTS step. -/
theorem replayRun_accounts (m : Memory) :
    ScanAccounts m (replayRun m WorkingResult.defaults).slotsUsed (replayRun m WorkingResult.defaults).slotsUsed
      (scanSlots m (directoryEnd m 0 256).1 (directoryEnd m 0 256).2 WorkingResult.defaults) :=
  foldl_range_induction (ScanAccounts m (directoryEnd m 0 256).1)
    ⟨rfl, nofun, rfl, imageKeys_nil.symm, nofun⟩
    fun _ _ hn h => h.takeSlot (directoryEnd_malformed hn)

theorem replayRun_slotsUsed_le (m : Memory) (work : WorkingResult) : (replayRun m work).slotsUsed ≤ 256 := by
  obtain ⟨-, high, -, -⟩ := directoryEnd_spec m 0 256
  rw [Nat.zero_add] at high
  exact high

theorem Memory.cellsTop_le (m : Memory) (bottom : Nat) : m.cellsTop bottom ≤ bottom := by
  obtain ⟨-, -, hfound⟩ := foldl_max_spec m (fun c : Host.Cell => c.1 < bottom ∧ c.2 ≠ 0) (fun c => c.1 + 1) 0
  simp only [decide_eq_true_eq] at hfound
  obtain htop | ⟨c, -, ⟨hlow, -⟩, htop⟩ := hfound
  · exact htop.le.trans (Nat.zero_le _)
  · exact htop.le.trans hlow

/-- HIGHWATER leaves body top at or below directory bottom (R31, R85). -/
theorem highwater_le (m : Memory) (used : Nat) (index : List IndexRecord) :
    highwater m used index ≤ directoryBottomOf used := by
  obtain ⟨-, -, htop | ⟨r, -, ⟨-, hrange⟩, htop⟩⟩ := highwater_spec m used index
  · exact htop.le.trans (m.cellsTop_le _)
  · exact htop.le.trans hrange

/-- Settles O20: the account of the scan, slot by slot, and the bound of HIGHWATER. -/
theorem replayAccounts : Obligations.ReplayAccounts := by
  intro m
  obtain ⟨seqs, fields, counts, -, classes⟩ := replayRun_accounts m
  have hindex : (scanSlots m (directoryEnd m 0 256).1 (directoryEnd m 0 256).2 WorkingResult.defaults).index =
      (replayRun m WorkingResult.defaults).index := rfl
  have hcounts : (scanSlots m (directoryEnd m 0 256).1 (directoryEnd m 0 256).2 WorkingResult.defaults).counts =
      (replayRun m WorkingResult.defaults).counts := rfl
  rw [hindex] at seqs fields counts classes
  rw [hcounts] at counts
  have hlength : (replayRun m WorkingResult.defaults).index.length = (replayRun m WorkingResult.defaults).slotsUsed := by
    have := congrArg List.length seqs
    simpa using this
  refine ⟨⟨replayRun_slotsUsed_le m _, ?_, ?_, highwater_le m _ _, seqs, fun r hr => ?_, ?_⟩, classes⟩
  · rw [counts]
    exact hlength
  · rw [counts]
    exact countsOf_balanced _
  · rw [fields r hr]
    exact ⟨by simp [SlotFields.record], rfl, rfl, rfl, rfl⟩
  · rw [counts]
    exact ⟨rfl, rfl, rfl, rfl, rfl⟩

end Sys2Proof.Machine
end

section
/-! PROOF. The arbiter (R44) and the two installs of a replay (R12, R13, R24, R43, R87, R91, R92). -/

namespace Sys2Proof.Machine

/-! ### The arbiter -/

theorem State.arbitrate_of_held {s : State} (h : s.grant = .replay ∨ s.grant = .writer ∧ s.writer ≠ .idle) :
    s.arbitrate = s := by
  unfold State.arbitrate
  obtain h | ⟨h, hw⟩ := h
  · rw [h]
  · rw [h]
    exact if_neg hw

theorem State.arbitrate_of_free {s : State} (h : s.grant = .free ∨ s.grant = .writer ∧ s.writer = .idle) :
    s.arbitrate = s.resolveGrant := by
  unfold State.arbitrate
  obtain h | ⟨h, hw⟩ := h
  · rw [h]
  · rw [h]
    exact if_pos hw

theorem State.resolveGrant_of_pending {s : State} (h : s.replay = .pending) : s.resolveGrant = s.grantRebuild := if_pos h

theorem State.resolveGrant_of_empty {s : State} (h : s.replay ≠ .pending) (hq : s.burnQueue = []) :
    s.resolveGrant = { s with grant := .free } := (if_neg h).trans (congrArg (serveJobs · s) hq)

/-- The head of the queue is started; where it ends at its first tests, the arbiter acts again (R44). -/
theorem State.resolveGrant_of_queued {s : State} {j : Job} {rest : List Job} (h : s.replay ≠ .pending)
    (hq : s.burnQueue = j :: rest) :
    let started := ({ s with burnQueue := rest, grant := .writer } : State).startJob j
    s.resolveGrant = if started.writer = .idle then started.arbitrate else started := by
  intro started
  rw [State.resolveGrant, if_neg h, hq]
  show (if started.writer = .idle then serveJobs rest started else started) = _
  split
  next hidle =>
    obtain ⟨_, e⟩ := State.startJob_frame { s with burnQueue := rest, grant := .writer } j
    have hgrant : started.grant = .writer := by rw [show started = _ from e]
    have hreplay : started.replay = s.replay := by rw [show started = _ from e]
    have hqueue : started.burnQueue = rest := by rw [show started = _ from e]
    rw [State.arbitrate_of_free (.inr ⟨hgrant, hidle⟩), State.resolveGrant, hreplay, if_neg h, hqueue]
  next => rfl

theorem serveJobs_setGrant (jobs : List Job) (s : State) (g : Grant) :
    serveJobs jobs { s with grant := g } = serveJobs jobs s := by cases jobs <;> rfl

/-- Who held the array before a grant does not bear on it. -/
theorem State.resolveGrant_setGrant (s : State) (g : Grant) : ({ s with grant := g } : State).resolveGrant = s.resolveGrant := by
  unfold State.resolveGrant
  split
  · rfl
  · exact serveJobs_setGrant s.burnQueue s g

/-- Settles O34: the arbiter by who holds the array, then by what waits for it. -/
theorem arbiterGrants : Obligations.ArbiterGrants := by
  refine fun s => ⟨State.arbitrate_of_held, fun hfree => ?_⟩
  rw [State.arbitrate_of_free hfree]
  exact ⟨State.resolveGrant_of_pending, State.resolveGrant_of_empty,
    fun _ _ hreplay hq => State.resolveGrant_of_queued hreplay hq⟩

/-! ### What both installs share -/

/-- The journal state after an install is that of the space rule alone (R43). -/
theorem installedJournal_eq (bodyTop slotsUsed : Nat) :
    installedJournal bodyTop slotsUsed =
      if 0x3000 - 16 * slotsUsed - bodyTop < 21 ∨ slotsUsed = 256 then .full else .opened := by
  unfold installedJournal spaceRule
  simp only [Bool.or_eq_true, decide_eq_true_eq]
  rfl

theorem find?_map_of_key {α : Type} {l : List Nat} {f : Nat → α} {key : α → Nat} {k : Nat} (hkey : ∀ n, key (f n) = n)
    (hk : k ∈ l) : (l.map f).find? (fun x => key x = k) = some (f k) := by
  induction l with
  | nil => cases hk
  | cons n rest ih =>
    rw [List.map_cons, List.find?_cons]
    by_cases hn : n = k
    · subst hn
      rw [hkey, decide_eq_true rfl]
    · rw [hkey, decide_eq_false hn]
      exact ih ((List.mem_cons.mp hk).resolve_left (Ne.symm hn))

/-! ### The start-up install -/

/-- The table that the start-up run installs is its settings image (R87). -/
theorem startupInstall_table (m : Memory) :
    installTable KeyRecord.startupInstall (replayRun m WorkingResult.defaults) resetTable =
      catalogKeys.map fun key =>
        KeyRecord.replayed key (sealedEntries m (replayRun m WorkingResult.defaults).index) := by
  have hkeys : (replayRun m WorkingResult.defaults).keys =
      imageKeys (sealedEntries m (replayRun m WorkingResult.defaults).index) := (replayRun_accounts m).keys
  rw [installTable, resetTable, List.map_map]
  refine List.map_congr_left fun key hkey => ?_
  have hfind : (replayRun m WorkingResult.defaults).key? key =
      some (KeyRecord.replayed key (sealedEntries m (replayRun m WorkingResult.defaults).index)).working := by
    rw [WorkingResult.key?, hkeys]
    exact find?_map_of_key (fun n => KeyRecord.replayed_key n _) hkey
  show (match (replayRun m WorkingResult.defaults).key? key with
    | some k => (KeyRecord.resetForm key).startupInstall k
    | none => KeyRecord.resetForm key) = _
  rw [hfind]
  have hpending := KeyRecord.replayed_pending key (sealedEntries m (replayRun m WorkingResult.defaults).index)
  have hreplayed := KeyRecord.replayed_key key (sealedEntries m (replayRun m WorkingResult.defaults).index)
  generalize KeyRecord.replayed key (sealedEntries m (replayRun m WorkingResult.defaults).index) = r at hpending hreplayed ⊢
  obtain ⟨rkey, active, pending, pinned, pinSeq, provenance⟩ := r
  subst hpending hreplayed
  rfl

/-- The start-up install and the end of its run, in which no job waits (R87). -/
theorem exec_startupReplayDone {s : State} (hblank : s.startupLaw) (hrunning : s.resetAsserted = false)
    (hreplay : s.replay = .startup) :
    exec .startupReplayDone s = .next ({ s.installStartup with grant := .free } : State).settle := by
  obtain ⟨-, hq, -⟩ := hblank (.inr hreplay)
  show Host.Outcome.next (s.running _) = _
  rw [State.running, if_neg (by rw [hrunning]; decide), if_pos hreplay, State.endRun,
    State.resolveGrant_of_empty (s := s.installStartup) (nofun : ReplayState.idle ≠ .pending) hq]

/-- Settles O21: the working keys of the run are the settings image of the SEALED entries it has indexed. -/
theorem startupRebuildsTable : Obligations.StartupRebuildsTable := by
  intro s t hblank htable hrunning hreplay h
  rw [exec_startupReplayDone hblank hrunning hreplay] at h
  injection h with h
  subst h
  obtain ⟨_, e⟩ := State.settle_frame { s.installStartup with grant := .free }
  obtain ⟨-, -, -, -, -, -, -, -, hreset, -⟩ := hblank (.inr hreplay)
  rw [e]
  show installTable KeyRecord.startupInstall (replayRun s.array s.defaultsOf) s.table = catalogKeys.map fun key =>
    KeyRecord.replayed key (sealedEntries s.array (replayRun s.array s.defaultsOf).index)
  rw [State.defaultsOf_eq htable.2.2, hreset]
  exact startupInstall_table s.array

theorem State.isDisabled_port1 {s : State} {v : Nat} (h : s.portEnable = some v) : s.isDisabled .port1 = !v.testBit 1 := by
  simp only [State.isDisabled, h]

theorem State.isDisabled_port2 {s : State} {v : Nat} (h : s.portEnable = some v) : s.isDisabled .port2 = !v.testBit 2 := by
  simp only [State.isDisabled, h]

theorem Link.startupInstall_eq (l : Link) (window : Nat) (enabled : Bool) :
    l.startupInstall window (!enabled) =
      if enabled then { l with ackWindow := some window }
      else { l with ackWindow := some window, state := .off, rxBits := [], pending := none, sending := none } := by
  cases enabled <;> rfl

/-- Settles O22: the installed figures and latches, field by field; out of STARTUP nothing ends. -/
theorem startupInstalls : Obligations.StartupInstalls := by
  refine ⟨fun s hblank htable hrunning hreplay => ?_, fun s hrunning hreplay => ?_⟩
  · intro run
    refine ⟨installTable KeyRecord.startupInstall run s.table, ?_⟩
    intro installed enable window
    have hdefaults := State.defaultsOf_eq htable.2.2
    rw [exec_startupReplayDone hblank hrunning hreplay]
    refine congrArg (fun t : State => Host.Outcome.next t.settle) ?_
    unfold State.installStartup State.installJournal
    rw [hdefaults]
    dsimp only
    rw [installedJournal_eq, State.isDisabled_port1 rfl, State.isDisabled_port2 rfl, Link.startupInstall_eq]
    rfl
  · show Host.Outcome.next (s.running _) = _
    rw [State.running, if_neg (by rw [hrunning]; decide), if_neg hreplay]

/-! ### The rebuild install -/

/-- A DEFERRED key keeps its active value and holds the derived one as pending where it differs; any other key takes
it (R15, R24). -/
theorem KeyRecord.rebuildInstall_eq (r : KeyRecord) (k : WorkingKey) :
    r.rebuildInstall k =
      if (descriptor? r.key).map Descriptor.applyMode = some .deferred then
        { r with
          pending := if k.value = r.active then none else some k.value
          pinned := k.pinned, pinSeq := k.pinSeq, provenance := k.provenance }
      else
        { r with
          active := k.value, pending := none
          pinned := k.pinned, pinSeq := k.pinSeq, provenance := k.provenance } := by
  unfold KeyRecord.rebuildInstall
  cases hd : descriptor? r.key with
  | none => rfl
  | some d => cases hmode : d.applyMode <;> simp [KeyRecord.setJournalValue, hmode]

/-- The sessions after the notices of a run: REBUILT to each that is open and watches, then REBUILD_DONE to the one
that asked while its flag is set (R92). -/
theorem State.postRebuild_session (s : State) (requester : Option Requester) (counts : ReplayCounts) :
    (s.postRebuild requester counts).session =
      match requester with
      | none => s.session
      | some q => s.session.map fun p u =>
          if p = q.port ∧ q.notice = true then
            (if u.isOpen = true ∧ u.watches ≠ [] then u.arrive (.rebuilt q.port) else u).arrive (.rebuildDone counts)
          else if u.isOpen = true ∧ u.watches ≠ [] then u.arrive (.rebuilt q.port) else u := by
  cases requester with
  | none => rfl
  | some q =>
    have htold : ∀ u : Session, (u.isOpen && !u.watches.isEmpty) = true ↔ u.isOpen = true ∧ u.watches ≠ [] := fun u => by
      simp
    obtain ⟨port, generation, notice⟩ := q
    simp only [State.postRebuild, htold]
    cases notice with
    | false => simp
    | true => cases port <;> simp [State.post, PerPort.map, PerPort.get, PerPort.set]

theorem State.postRebuild_eq (s : State) (requester : Option Requester) (counts : ReplayCounts) :
    s.postRebuild requester counts = { s with session := (s.postRebuild requester counts).session } := by
  cases requester with
  | none => rfl
  | some q =>
    unfold State.postRebuild
    dsimp only
    split <;> rfl

/-- Settles O23: the run's figures and table, then the arbiter by what waits for the array. -/
theorem rebuildInstalls : Obligations.RebuildInstalls := by
  refine ⟨fun s hrunning hreplay => ?_, fun s hrunning hreplay => ?_⟩
  · intro run table told installed
    have hinstalled : ({ s.installRebuild with grant := .free } : State) = installed := by
      have htable : installTable KeyRecord.rebuildInstall run s.table = table := by
        refine List.map_congr_left fun r _ => ?_
        rw [WorkingResult.key?]
        cases run.keys.find? (·.key = r.key) with
        | none => rfl
        | some k => exact r.rebuildInstall_eq k
      have hrun : replayRun s.array s.defaultsOf = run := rfl
      rw [State.installRebuild, State.postRebuild_eq, State.postRebuild_session]
      dsimp only [State.installJournal]
      rw [hrun, htable, installedJournal_eq] <;> rfl
    have hexec : exec .rebuildInstall s = .next installed.resolveGrant.settle := by
      show Host.Outcome.next (s.running _) = _
      rw [State.running, if_neg (by rw [hrunning]; decide), if_pos hreplay, State.endRun, ← hinstalled]
      exact congrArg (fun t : State => Host.Outcome.next t.settle) (s.installRebuild.resolveGrant_setGrant .free).symm
    have hidle : installed.replay ≠ .pending := (nofun : ReplayState.idle ≠ .pending)
    refine ⟨?_, fun hq => ?_, fun j rest hq => ?_⟩
    · rw [hexec, State.arbitrate_of_free (.inl rfl)]
    · rw [hexec, State.resolveGrant_of_empty hidle hq]
    · intro started hbusy
      rw [hexec, State.resolveGrant_of_queued (rest := rest) hidle hq]
      exact congrArg (fun t : State => Host.Outcome.next t.settle) (if_neg hbusy)
  · show Host.Outcome.next (s.running _) = _
    rw [State.running, if_neg (by rw [hrunning]; decide), if_neg hreplay]

end Sys2Proof.Machine
end

section
/-! PROOF. The queue of commands (log entry 2), the state after a device reset (R25, R46, R78), and the reset itself, the
BURN_EN pin and a defective cell (R26, R28, R29, R77). -/

namespace Sys2Proof.Machine

/-- Settles O1: a step by what its queue holds. -/
theorem stepTakesFront : Obligations.StepTakesFront := by
  refine ⟨fun c s rest h => ?_, fun s h => ?_⟩
  · rw [step, h]
  · rw [step, h]

/-! ### The state after a device reset -/

theorem resetTable_default {r : KeyRecord} (h : r ∈ resetTable) :
    ∃ c, descriptor? r.key = some c ∧ r = ⟨r.key, c.default, none, false, none, 0⟩ := by
  obtain ⟨key, hkey, rfl⟩ := List.mem_map.mp h
  obtain ⟨c, hc⟩ := Option.isSome_iff_exists.mp (mem_catalogKeys_iff.mp hkey)
  refine ⟨c, hc, ?_⟩
  simp only [KeyRecord.resetForm, hc]

theorem State.reset_journalLaw : State.reset.journalLaw :=
  ⟨rfl, ⟨by decide, by decide⟩, ⟨by decide, by decide, nofun, nofun⟩, by decide, nofun⟩

theorem State.reset_blank : State.reset.blank :=
  ⟨rfl, rfl, rfl, rfl, rfl, rfl, rfl, rfl, rfl, rfl, rfl,
    fun p => by cases p <;> exact ⟨rfl, rfl, fun h => nomatch h⟩⟩

/-- Settles O2: the reset values as they stand, the laws of an empty part. -/
theorem resetState : Obligations.ResetState := by
  refine ⟨⟨fun r => resetTable_default, resetTable_key, rfl, rfl, rfl, rfl, rfl, rfl, rfl, rfl, rfl, rfl, rfl, ?_, ?_,
    rfl, rfl, rfl, rfl, rfl, rfl⟩, rfl, State.reset_journalLaw, List.nodup_nil,
    State.tableLaw_of resetTable_lawful (.inr rfl), ⟨by decide, List.Pairwise.nil, nofun, nofun⟩,
    fun _ => State.reset_blank, ?_, ?_, ⟨?_, nofun, nofun⟩, ?_, ⟨by decide, fun _ => rfl⟩, ⟨?_, rfl⟩, rfl⟩
  · intro p
    cases p <;> exact ⟨rfl, rfl, rfl, rfl, rfl, rfl, rfl, rfl, rfl⟩
  · intro w
    cases w <;> exact ⟨rfl, rfl, rfl, rfl, rfl, rfl, rfl⟩
  · intro p
    cases p <;> exact StagingList.lawful_empty
  · intro p
    cases p <;> exact ⟨by decide, nofun, nofun, List.nodup_nil⟩
  · intro p
    cases p <;> exact Session.closedClean_of_empty rfl rfl rfl rfl
  · intro w
    cases w <;> rfl
  · intro w
    cases w <;> exact ⟨rfl, rfl⟩

/-! ### Device events -/

theorem State.cutPulse_frame (s : State) (cut : Byte) : s.cutPulse cut = { s with array := (s.cutPulse cut).array } := by
  unfold State.cutPulse State.pulseCell
  split
  · split <;> rfl
  · rfl

theorem State.pulseCell_array (s : State) (offset : Nat) (taken : Byte) :
    (s.pulseCell offset taken).array = s.arrayAfterPulse offset taken := by
  unfold State.pulseCell State.arrayAfterPulse
  split <;> rfl

/-- A pulse reaches its cell only with BURN_EN high, sets bits there and changes no other cell (R26, R28). -/
theorem State.read_arrayAfterPulse {s : State} (h : s.array.wf = true) (offset a : Nat) (taken : Byte) :
    (s.arrayAfterPulse offset taken).read a =
      if a = offset ∧ s.burnEn = true ∧ offset < 0x3000 then s.array.read a ||| taken else s.array.read a := by
  unfold State.arrayAfterPulse
  by_cases hburn : s.burnEn = true
  · rw [if_pos hburn, Memory.read_setBits h]
    by_cases ha : a = offset
    · subst ha
      simp only [hburn, true_and]
    · rw [if_neg fun hc => ha hc.1, if_neg fun hc => ha hc.1]
  · rw [if_neg hburn, if_neg fun hc => hburn hc.2.1]

/-- While RESET is asserted an event changes nothing (log entry 15). -/
theorem State.running_of_reset {s : State} (h : s.resetAsserted = true) (f : State → State) :
    (Host.Outcome.next (s.running f) : Host.Outcome State Fault Refusal) = .next s := congrArg _ (if_pos h)

theorem exec_of_reset {c : Instr} {s : State} (h : s.resetAsserted = true) (hreset : ∀ cut, c ≠ .deviceReset cut)
    (hrelease : ∀ x y, c ≠ .resetRelease x y) (hburn : ∀ level, c ≠ .burnEnChange level)
    (hcell : ∀ offset bits, c ≠ .cellBitGain offset bits) : exec c s = .next s := by
  cases c
  case deviceReset cut => exact (hreset cut rfl).elim
  case resetRelease x y => exact (hrelease x y rfl).elim
  case burnEnChange level => exact (hburn level rfl).elim
  case cellBitGain offset bits => exact (hcell offset bits rfl).elim
  all_goals exact State.running_of_reset h _

/-- Settles O3: each device event by its meaning; every other command waits for RESET to be released. -/
theorem deviceEvents : Obligations.DeviceEvents := by
  refine ⟨fun cut s hwf => ⟨(s.cutPulse cut).array, ?_, fun a => ?_⟩,
    fun x y s h => ?_, fun x y s h => ?_, fun level s => rfl, fun offset bits s hwf hoffset => ?_,
    fun offset bits s hoffset => ?_, fun c s h hreset hrelease hburn hcell => exec_of_reset h hreset hrelease hburn hcell⟩
  · show Host.Outcome.next (s.cutPulse cut).assertReset = _
    rw [s.cutPulse_frame cut]
    rfl
  · unfold State.cutPulse
    cases hunder : s.underBurn with
    | none => rfl
    | some x =>
      obtain ⟨offset, target⟩ := x
      exact (congrArg (Memory.read · a) (s.pulseCell_array offset _)).trans (State.read_arrayAfterPulse hwf offset a _)
  · show Host.Outcome.next (if s.resetAsserted then _ else _) = _
    rw [if_pos h]
    rfl
  · show Host.Outcome.next (if s.resetAsserted then _ else _) = _
    rw [if_neg (by rw [h]; decide)]
  · refine ⟨s.array.setBits offset.toNat bits, if_pos hoffset, fun a => ?_⟩
    rw [Memory.read_setBits hwf]
    simp only [hoffset, and_true]
    split
    next ha => rw [ha]
    next => rfl
  · exact if_neg (Nat.not_lt.mpr hoffset)

end Sys2Proof.Machine
end

section
/-! PROOF. The laws of the journal through every step (R31, R37, R44, R61): each step of the writer keeps the index
numbered and the regions apart and leaves a plan that fits, and the arbiter grants a free array. -/

namespace Sys2Proof.Machine

/-! ### The figures of the journal -/

/-- The index numbered and the regions apart (R31, R37). -/
def State.figuresLaw (s : State) : Prop := s.indexNumbered ∧ s.regionsApart

/-- What a step of the writer leaves: the figures in order, and of its job a plan that fits (R61, R62, R64, R65). -/
def State.jobLaw (s : State) : Prop := s.figuresLaw ∧ s.planLaw

/-- The slot of the job is the next free one, and room for it stands below body top (R64, R65). -/
structure State.SlotFree (s : State) (a : ActiveJob) : Prop where
  figures : s.figuresLaw
  slot : a.slot = s.slotsUsed
  used : s.slotsUsed < 256
  room : s.bodyTop + 16 ≤ s.directoryBottom

/-- The job's body and slot are planned at body top and fit in the free space (R62). -/
structure State.Planned (s : State) (a : ActiveJob) : Prop where
  figures : s.figuresLaw
  slot : a.slot = s.slotsUsed
  offset : a.bodyOffset = s.bodyTop
  used : s.slotsUsed < 256
  room : s.bodyTop + a.bodyLength + 16 ≤ s.directoryBottom

theorem State.directoryBottom_eq (s : State) : s.directoryBottom = 0x3000 - 16 * s.slotsUsed := rfl

theorem State.Planned.slotFree {s : State} {a : ActiveJob} (h : s.Planned a) : (s.endBody a).SlotFree a := by
  obtain ⟨⟨numbered, hused, htop⟩, slot, offset, used, room⟩ := h
  have hbottom : (s.endBody a).directoryBottom = s.directoryBottom := rfl
  have hbody : (s.endBody a).bodyTop = a.bodyOffset + a.bodyLength := rfl
  exact ⟨⟨numbered, hused, by omega⟩, slot, used, by omega⟩

theorem State.figuresLaw_of_seqs {s t : State} (h : s.figuresLaw)
    (hindex : t.index.map IndexRecord.seq = s.index.map IndexRecord.seq) (hused : t.slotsUsed = s.slotsUsed)
    (htop : t.bodyTop = s.bodyTop) : t.figuresLaw := by
  obtain ⟨numbered, hmax, hbottom⟩ := h
  unfold State.figuresLaw State.indexNumbered State.regionsApart State.directoryBottom
  rw [hindex, hused, htop]
  exact ⟨numbered, hmax, hbottom⟩

theorem State.figuresLaw_setEntryState {s : State} (h : s.figuresLaw) (seq : Nat) (state : EntryState) :
    (s.setEntryState seq state).figuresLaw := by
  refine State.figuresLaw_of_seqs h ?_ rfl rfl
  show (s.index.map _).map _ = _
  rw [List.map_map]
  refine List.map_congr_left fun r _ => ?_
  show (if r.seq = seq then { r with state := state } else r).seq = r.seq
  split <;> rfl

theorem State.figuresLaw_markApplied {s : State} (h : s.figuresLaw) (seq : Nat) : (s.markApplied seq).figuresLaw := by
  refine State.figuresLaw_of_seqs h ?_ rfl rfl
  show (s.index.map _).map _ = _
  rw [List.map_map]
  refine List.map_congr_left fun r _ => ?_
  show (if r.seq = seq then { r with applied := true } else r).seq = r.seq
  split <;> rfl

/-- The slot begun takes the next number, and directory bottom falls by its 16 bytes (R31, R38). -/
theorem State.SlotFree.beginSlot {s : State} {a : ActiveJob} (h : s.SlotFree a) : (s.beginSlot a).figuresLaw := by
  obtain ⟨⟨numbered, hmax, -⟩, slot, used, room⟩ := h
  refine ⟨?_, used, ?_⟩
  · show (s.index ++ [_]).map _ = (List.range (s.slotsUsed + 1)).map _
    rw [List.map_append, numbered, List.range_succ, List.map_append, List.map_singleton, List.map_singleton, ← slot]
    rfl
  · have hbottom : (s.beginSlot a).directoryBottom = 0x3000 - 16 * (s.slotsUsed + 1) := rfl
    have htop : (s.beginSlot a).bodyTop = s.bodyTop := rfl
    rw [State.directoryBottom_eq] at room
    omega

/-! ### The ends of a job, and a job held -/

theorem State.jobLaw_of_idle {s : State} (h : s.figuresLaw) (hw : s.writer = .idle) (ha : s.active = none) : s.jobLaw :=
  ⟨h, iff_of_true ha hw, fun a hactive => by rw [ha] at hactive; cases hactive⟩

theorem State.jobLaw_endCommit {s : State} (h : s.figuresLaw) (j : Job) (result : Result) (seq failIndex : Option Nat) :
    (s.endCommit j result seq failIndex).jobLaw := by
  rw [State.endCommit_eq]
  exact State.jobLaw_of_idle h rfl rfl

theorem State.jobLaw_endRevoke {s : State} (h : s.figuresLaw) (j : Job) (result : Result) (target : Nat) :
    (s.endRevoke j result target).jobLaw := by
  rw [State.endRevoke_eq]
  exact State.jobLaw_of_idle h rfl rfl

/-- A job held in a step other than BODY, and at a moment other than the end of BODY, has nothing planned. -/
theorem State.jobLaw_hold {s : State} {step : WriterState} {a : ActiveJob} (h : s.figuresLaw) (hidle : step ≠ .idle)
    (hbody : step ≠ .body) (hmoment : ∀ whole, a.moment ≠ .bodyEnded whole) :
    ({ s with writer := step, active := some a } : State).jobLaw := by
  refine ⟨h, iff_of_false nofun hidle, fun b hb => ?_⟩
  obtain rfl := Option.some.inj hb
  exact ⟨fun hstep _ => (hbody hstep).elim, fun whole hw => (hmoment whole hw).elim⟩

theorem State.jobLaw_burning {s : State} {step : WriterState} (h : s.figuresLaw) (a : ActiveJob)
    (todo : List (Nat × Byte)) (pulses : Nat) (hidle : step ≠ .idle) (hbody : step ≠ .body) :
    (s.burning step a todo pulses).jobLaw := State.jobLaw_hold h hidle hbody nofun

theorem State.Planned.burning {s : State} {a : ActiveJob} (h : s.Planned a) (todo : List (Nat × Byte)) (pulses : Nat) :
    (s.burning .body a todo pulses).jobLaw := by
  obtain ⟨figures, slot, offset, used, room⟩ := h
  refine ⟨figures, iff_of_false nofun nofun, fun b hb => ?_⟩
  obtain rfl := Option.some.inj hb
  exact ⟨fun _ _ => ⟨slot, offset, used, room⟩, nofun⟩

theorem State.SlotFree.holdAt {s : State} {a : ActiveJob} (h : s.SlotFree a) (whole : Bool) :
    (s.holdAt .body a (.bodyEnded whole)).jobLaw := by
  obtain ⟨figures, slot, used, room⟩ := h
  refine ⟨figures, iff_of_false nofun nofun, fun b hb => ?_⟩
  obtain rfl := Option.some.inj hb
  exact ⟨fun _ => nofun, fun _ _ => ⟨slot, used, room⟩⟩

/-! ### The steps of a commit and of a revoke -/

theorem State.jobLaw_stepVoid {s : State} (h : s.figuresLaw) (a : ActiveJob) (r : BurnRun) : (s.stepVoid a r).jobLaw := by
  cases r with
  | pulses todo taken => exact State.jobLaw_burning h a todo taken (by decide) (by decide)
  | finished => exact State.jobLaw_endCommit (State.figuresLaw_setEntryState h _ _) _ _ _ _
  | failed => exact State.jobLaw_endCommit (s := { s with journal := .faulted }) h _ _ _ _

theorem State.jobLaw_voidSlot {s : State} (h : s.figuresLaw) (a : ActiveJob) : (s.voidSlot a).jobLaw :=
  State.jobLaw_stepVoid h a _

theorem State.jobLaw_stepEntry {s : State} (h : s.figuresLaw) (a : ActiveJob) (r : BurnRun) :
    (s.stepEntry a r).jobLaw := by
  cases r with
  | pulses todo taken => exact State.jobLaw_burning h a todo taken (by decide) (by decide)
  | finished => exact State.jobLaw_burning h a [] 0 (by decide) (by decide)
  | failed => exact State.jobLaw_voidSlot h a

theorem State.SlotFree.leaveBody {s : State} {a : ActiveJob} (h : s.SlotFree a) (whole : Bool) :
    (s.leaveBody a whole).jobLaw := by
  cases whole with
  | true => exact State.jobLaw_stepEntry h.beginSlot a _
  | false => exact State.jobLaw_stepVoid h.beginSlot a _

theorem State.Planned.finishBody {s : State} {a : ActiveJob} (h : s.Planned a) (whole pause : Bool) :
    (s.finishBody a whole pause).jobLaw := by
  cases pause with
  | true => exact h.slotFree.holdAt whole
  | false => exact h.slotFree.leaveBody whole

theorem State.Planned.stepBody {s : State} {a : ActiveJob} (h : s.Planned a) (r : BurnRun) (pause : Bool) :
    (s.stepBody a r pause).jobLaw := by
  cases r with
  | pulses todo taken => exact h.burning todo taken
  | finished => exact h.finishBody true pause
  | failed => exact h.finishBody false pause

theorem State.figuresLaw_sendReports {s : State} (h : s.figuresLaw) (reports : List Report) :
    (s.sendReports reports).figuresLaw := h

theorem State.jobLaw_applyPatch {s : State} (h : s.figuresLaw) (a : ActiveJob) (pause : Bool) :
    (s.applyPatch a pause).jobLaw := by
  have happlied := State.figuresLaw_markApplied (s := s.applyActions a.seq (s.staging.get a.job.port).actions) h a.seq
  cases pause with
  | true => exact State.jobLaw_hold (State.figuresLaw_sendReports happlied _) (by decide) (by decide) nofun
  | false => exact State.jobLaw_endCommit (State.figuresLaw_sendReports happlied _) _ _ _ _

theorem State.jobLaw_stepSeal {s : State} (h : s.figuresLaw) (a : ActiveJob) (r : BurnRun) (pause : Bool) :
    (s.stepSeal a r pause).jobLaw := by
  have hsealed := State.figuresLaw_setEntryState h a.seq .sealed
  cases r with
  | pulses todo taken => exact State.jobLaw_burning h a todo taken (by decide) (by decide)
  | finished =>
    cases pause with
    | true => exact State.jobLaw_hold hsealed (by decide) (by decide) nofun
    | false => exact State.jobLaw_applyPatch hsealed a false
  | failed => exact State.jobLaw_voidSlot h a

theorem State.jobLaw_stepVerify {s : State} (h : s.figuresLaw) (a : ActiveJob) (pause : Bool) :
    (s.stepVerify a pause).jobLaw := by
  unfold State.stepVerify
  split
  · exact State.jobLaw_stepSeal h a _ pause
  · exact State.jobLaw_voidSlot h a

theorem State.jobLaw_stepRevoke {s : State} (h : s.figuresLaw) (a : ActiveJob) (r : BurnRun) :
    (s.stepRevoke a r).jobLaw := by
  unfold State.stepRevoke
  split
  · exact State.jobLaw_burning h a _ _ (by decide) (by decide)
  · split
    · exact State.jobLaw_endRevoke (s := { s with journal := .faulted }) h _ _ _
    · exact State.jobLaw_endRevoke (State.figuresLaw_setEntryState h _ _) _ _ _

/-! ### The tests of a job -/

/-- A commit that passes its precheck has its body and slot within the free space (test 6 of R62). -/
theorem State.planned_of_precheck {s : State} (h : s.figuresLaw) (j : Job) {actions : List Action}
    (hcheck : precheck s j.port actions = none) : s.Planned (s.commitPlan j actions) := by
  have hfits : s.entryFits actions = true := by
    by_contra hfails
    unfold precheck at hcheck
    split_ifs at hcheck with _ _ _ _ hroom
    · split at hcheck <;> cases hcheck
    · exact hfails (by simpa using hroom)
    · exact hfails (by simpa using hroom)
  simp only [State.entryFits, Bool.and_eq_true, decide_eq_true_eq] at hfits
  obtain ⟨hused, hroom⟩ := hfits
  have hneeds : encodedLength actions + 16 ≤ s.freeSpace := by
    split at hroom
    · exact of_decide_eq_true hroom
    · exact (Nat.le_add_right _ _).trans (of_decide_eq_true hroom)
  refine ⟨h, rfl, rfl, hused, ?_⟩
  show s.bodyTop + encodedLength actions + 16 ≤ s.directoryBottom
  rw [State.freeSpace] at hneeds
  omega

theorem State.jobLaw_testCommit {s : State} (h : s.figuresLaw) (j : Job) : (s.testCommit j).jobLaw := by
  unfold State.testCommit
  dsimp only
  split
  · exact State.jobLaw_endCommit (s := { s with journal := .faulted }) h _ _ _ _
  · exact State.jobLaw_endCommit h _ _ _ _
  next hcheck => exact (State.planned_of_precheck h j hcheck).stepBody _ _

theorem State.jobLaw_testJob {s : State} (h : s.figuresLaw) (j : Job) : (s.testJob j).jobLaw := by
  unfold State.testJob
  split
  · exact State.jobLaw_testCommit h j
  · unfold State.testRevoke
    split
    · exact State.jobLaw_endRevoke h _ _ _
    · exact State.jobLaw_stepRevoke h _ _

theorem State.jobLaw_grantJob {s : State} (h : s.figuresLaw) (j : Job) : (s.grantJob j).jobLaw := by
  unfold State.grantJob
  split
  · exact State.jobLaw_hold (s := s.setStaging _ _) h (by decide) (by decide) nofun
  · exact State.jobLaw_hold h (by decide) (by decide) nofun

theorem State.jobLaw_startJob {s : State} (h : s.figuresLaw) (j : Job) : (s.startJob j).jobLaw := by
  unfold State.startJob
  dsimp only
  split
  · exact State.jobLaw_grantJob h j
  · exact State.jobLaw_testJob (State.jobLaw_grantJob h j).1 j

/-! ### A pulse -/

theorem State.jobLaw_pulse {s : State} {a : ActiveJob} (h : s.jobLaw) (ha : s.active = some a) (hm : a.moment = .none)
    (taken : Byte) (pause : Bool) : (s.pulse a taken pause).jobLaw := by
  obtain ⟨figures, hactive, hplan⟩ := h
  obtain ⟨hbody, -⟩ := hplan a ha
  unfold State.pulse
  split
  · exact ⟨figures, hactive, hplan⟩
  next offset _ _ _ =>
    obtain ⟨_, e⟩ := State.pulseCell_frame s offset taken
    have hpulsed : (s.pulseCell offset taken).figuresLaw := by rw [e]; exact figures
    dsimp only
    split
    next hwriter =>
      obtain ⟨slot, hoffset, used, room⟩ := hbody hwriter hm
      have hplanned : (s.pulseCell offset taken).Planned a := by
        rw [e]
        exact ⟨figures, slot, hoffset, used, room⟩
      exact hplanned.stepBody _ pause
    · exact State.jobLaw_stepEntry hpulsed a _
    · exact State.jobLaw_stepSeal hpulsed a _ pause
    · exact State.jobLaw_stepVoid hpulsed a _
    · exact State.jobLaw_stepRevoke hpulsed a _
    · exact ⟨figures, hactive, hplan⟩

theorem State.jobLaw_burnPulse {s : State} (h : s.jobLaw) (taken : Byte) (pause : Bool) :
    (s.burnPulse taken pause).jobLaw := by
  unfold State.burnPulse
  split
  · exact h
  next a ha =>
    have ⟨figures, _, hplan⟩ := h
    obtain ⟨-, hended⟩ := hplan a ha
    split
    · exact State.jobLaw_testJob figures _
    next whole hm =>
      obtain ⟨slot, used, room⟩ := hended whole hm
      exact State.SlotFree.leaveBody ⟨figures, slot, used, room⟩ whole
    · exact State.jobLaw_applyPatch figures a pause
    · exact State.jobLaw_endCommit figures _ _ _ _
    next hm => exact State.jobLaw_pulse h ha hm taken pause

end Sys2Proof.Machine
end

section
/-! PROOF. The grant of the array through every step (R44, R61, R77), and with it the laws of the journal. -/

namespace Sys2Proof.Machine

/-! ### What a command can do under RESET -/

/-- While RESET is asserted no more happens than a settling, the reset again, its release, a level of BURN_EN or a
defective cell's gain (R77, log entry 15). -/
theorem Effect.of_reset {s t : State} (he : Effect s t) (h : s.resetAsserted = true) :
    t = s ∨ t = s.settle ∨ (∃ cut, t = (s.cutPulse cut).assertReset) ∨ (∃ x y, t = s.releaseReset x y) ∨
      (∃ level, t = { s with burnEn := level }) ∨ ∃ m : Memory, t = { s with array := m } := by
  cases he with
  | unchanged => exact .inl rfl
  | settled => exact .inr (.inl rfl)
  | deviceReset cut => exact .inr (.inr (.inl ⟨cut, rfl⟩))
  | resetRelease x y => exact .inr (.inr (.inr (.inl ⟨x, y, rfl⟩)))
  | burnEn level => exact .inr (.inr (.inr (.inr (.inl ⟨level, rfl⟩))))
  | cellGain offset bits => exact .inr (.inr (.inr (.inr (.inr ⟨_, rfl⟩))))
  | request p r hr => rw [h] at hr; cases hr
  | answerReady p hr => rw [h] at hr; cases hr
  | heldRead p hr => rw [h] at hr; cases hr
  | windowWrite w offset data hr => rw [h] at hr; cases hr
  | windowPointer w byte hr => rw [h] at hr; cases hr
  | windowRead w hr => rw [h] at hr; cases hr
  | frame type tag code payload hr => rw [h] at hr; cases hr
  | bytes bytes ending hr => rw [h] at hr; cases hr
  | turnaround hr => rw [h] at hr; cases hr
  | endSend hr => rw [h] at hr; cases hr
  | timer hr => rw [h] at hr; cases hr
  | heldLow hr => rw [h] at hr; cases hr
  | released hr => rw [h] at hr; cases hr
  | startMark hr => rw [h] at hr; cases hr
  | low ns hr => rw [h] at hr; cases hr
  | pulse taken hr => rw [h] at hr; cases hr
  | verify a hr => rw [h] at hr; cases hr
  | startup hr => rw [h] at hr; cases hr
  | rebuild hr => rw [h] at hr; cases hr
  | tick hr => rw [h] at hr; cases hr
  | expiry hr => rw [h] at hr; cases hr

/-! ### The arbiter -/

/-- What the arbiter asks of the state it acts on: a writer that serves a job holds the array, and so does a run. -/
structure State.Grantable (s : State) : Prop where
  job : s.jobLaw
  writer : s.writer ≠ .idle → s.grant = .writer
  run : s.resetAsserted = false → (s.grant = .replay ↔ s.replay = .startup ∨ s.replay = .rebuilding)
  reset : s.resetAsserted = true → s.grant = .replay

theorem State.journalLaw.grantable {s : State} (h : s.journalLaw) : s.Grantable := by
  obtain ⟨numbered, apart, ⟨hwriter, hrun, -, hreset⟩, plan⟩ := h
  exact ⟨⟨⟨numbered, apart⟩, plan⟩, hwriter.mpr, hrun, hreset⟩

theorem State.journalLaw_of {s : State} (h : s.jobLaw) (hgrant : s.grantLaw) : s.journalLaw :=
  ⟨h.1.1, h.1.2, hgrant, h.2⟩

/-- The jobs of the queue in turn: one that goes on holds the array, and none leaves it free (R44). -/
theorem journalLaw_serveJobs (jobs : List Job) {s : State} (hjob : s.jobLaw) (hidle : s.writer = .idle)
    (hreset : s.resetAsserted = false) (hreplay : s.replay = .idle) (hq : s.burnQueue = jobs) :
    (serveJobs jobs s).journalLaw := by
  induction jobs generalizing s with
  | nil =>
    refine State.journalLaw_of (s := { s with grant := .free }) hjob ⟨?_, fun _ => ?_, fun _ => ?_, fun hr => ?_⟩
    · exact iff_of_false nofun fun hne => hne hidle
    · exact iff_of_false nofun fun hrun => by rw [hreplay] at hrun; obtain h | h := hrun <;> cases h
    · exact ⟨hq, fun hpending => by rw [hreplay] at hpending; cases hpending⟩
    · rw [hreset] at hr
      cases hr
  | cons j rest ih =>
    obtain ⟨_, e⟩ := State.startJob_frame { s with burnQueue := rest, grant := .writer } j
    have hstarted := State.jobLaw_startJob (s := { s with burnQueue := rest, grant := .writer }) hjob.1 j
    unfold serveJobs
    dsimp only
    generalize State.startJob { s with burnQueue := rest, grant := .writer } j = started at e hstarted ⊢
    have hgrant : started.grant = .writer := by rw [e]
    have hq' : started.burnQueue = rest := by rw [e]
    have hreset' : started.resetAsserted = false := by rw [e]; exact hreset
    have hreplay' : started.replay = .idle := by rw [e]; exact hreplay
    split
    next hidle' => exact ih hstarted hidle' hreset' hreplay' hq'
    next hbusy =>
      refine State.journalLaw_of hstarted ⟨iff_of_true hgrant hbusy, fun _ => ?_, fun hfree => ?_, fun hr => ?_⟩
      · refine iff_of_false (by rw [hgrant]; exact nofun) fun hrun => ?_
        rw [hreplay'] at hrun
        obtain h | h := hrun <;> cases h
      · rw [hgrant] at hfree
        cases hfree
      · rw [hreset'] at hr
        cases hr

theorem State.journalLaw_resolveGrant {s : State} (hjob : s.jobLaw) (hidle : s.writer = .idle)
    (hreset : s.resetAsserted = false) (hreplay : s.replay = .idle ∨ s.replay = .pending) :
    s.resolveGrant.journalLaw := by
  obtain hreplay | hreplay := hreplay
  · rw [State.resolveGrant, if_neg (by rw [hreplay]; decide)]
    exact journalLaw_serveJobs _ hjob hidle hreset hreplay rfl
  · rw [State.resolveGrant_of_pending hreplay]
    refine State.journalLaw_of (s := s.grantRebuild) hjob ⟨?_, fun _ => ?_, nofun, fun _ => rfl⟩
    · exact iff_of_false nofun fun hne => hne hidle
    · exact iff_of_true rfl (.inr rfl)

theorem State.Grantable.arbitrate {s : State} (h : s.Grantable) : s.arbitrate.journalLaw := by
  obtain ⟨job, writer, run, reset⟩ := h
  by_cases hheld : s.grant = .replay ∨ s.grant = .writer ∧ s.writer ≠ .idle
  · rw [State.arbitrate_of_held hheld]
    refine State.journalLaw_of job ⟨⟨fun hw => ?_, writer⟩, run, fun hfree => ?_, reset⟩
    · obtain hr | ⟨-, hbusy⟩ := hheld
      · rw [hw] at hr
        cases hr
      · exact hbusy
    · obtain hr | ⟨hw, -⟩ := hheld
      · rw [hfree] at hr
        cases hr
      · rw [hfree] at hw
        cases hw
  · push Not at hheld
    obtain ⟨hreplay, hwriter⟩ := hheld
    have hreset : s.resetAsserted = false := by
      by_contra hr
      exact hreplay (reset (by simpa using hr))
    have hidle : s.writer = .idle := by
      by_contra hbusy
      exact hbusy (hwriter (writer hbusy))
    have hfree : s.grant = .free ∨ s.grant = .writer ∧ s.writer = .idle := by
      cases hg : s.grant with
      | free => exact .inl rfl
      | writer => exact .inr ⟨rfl, hidle⟩
      | replay => exact (hreplay hg).elim
    rw [State.arbitrate_of_free hfree]
    refine State.journalLaw_resolveGrant job hidle hreset ?_
    have hrun := mt (run hreset).mpr hreplay
    push Not at hrun
    cases hr : s.replay with
    | idle => exact .inl rfl
    | pending => exact .inr rfl
    | startup => exact (hrun.1 hr).elim
    | rebuilding => exact (hrun.2 hr).elim

/-! ### Requests and session ends -/

theorem State.planLaw_of_active {s t : State} (h : s.planLaw) (hwriter : t.writer = s.writer)
    (htop : t.bodyTop = s.bodyTop) (hused : t.slotsUsed = s.slotsUsed) (f : ActiveJob → ActiveJob)
    (hactive : t.active = s.active.map f)
    (hf : ∀ a, (f a).slot = a.slot ∧ (f a).bodyOffset = a.bodyOffset ∧ (f a).bodyLength = a.bodyLength ∧
      (f a).moment = a.moment) : t.planLaw := by
  obtain ⟨hiff, hplan⟩ := h
  refine ⟨?_, fun b hb => ?_⟩
  · rw [hactive, Option.map_eq_none_iff, hwriter]
    exact hiff
  · rw [hactive] at hb
    obtain ⟨a, ha, rfl⟩ := Option.map_eq_some_iff.mp hb
    obtain ⟨hslot, hoffset, hlength, hmoment⟩ := hf a
    rw [State.directoryBottom_eq, hslot, hoffset, hlength, hmoment, hwriter, htop, hused]
    exact hplan a ha

/-- A session end clears a notice flag of the writer's job and takes jobs out of the queue; no figure of the journal
changes (R60, R96, R125). -/
theorem State.journalLaw_endSession {s : State} (p : Port) (h : s.journalLaw) : (s.endSession p).journalLaw := by
  cases hopen : (s.session.get p).isOpen with
  | false => rwa [State.endSession_of_closed hopen]
  | true =>
    rw [State.endSession_of_open hopen]
    obtain ⟨numbered, apart, ⟨hwriter, hrun, hfree, hreset⟩, plan⟩ := h
    refine ⟨numbered, apart, ⟨hwriter, hrun, fun hgrant => ?_, hreset⟩, ?_⟩
    · obtain ⟨hq, hpending⟩ := hfree hgrant
      refine ⟨?_, hpending⟩
      show s.burnQueue.filter _ = []
      rw [hq]
      rfl
    · refine State.planLaw_of_active (s := s) plan rfl rfl rfl
        (fun a => if a.job.port = p then { a with job := { a.job with notice := false } } else a) rfl fun a => ?_
      split <;> exact ⟨rfl, rfl, rfl, rfl⟩

theorem State.journalLaw_serve (s : State) (p : Port) (q : Request) (h : s.journalLaw) :
    (s.serve p q).1.journalLaw := by
  generalize ht : (s.serve p q).1 = t
  have he : ServeEffect s p t := ht ▸ serve_effect s p q
  cases he with
  | opened => exact State.journalLaw_endSession p h
  | closed => exact State.journalLaw_endSession p h
  | committed =>
    obtain ⟨job, writer, run, reset⟩ := h.grantable
    exact State.Grantable.arbitrate ⟨job, writer, run, reset⟩
  | revoking =>
    obtain ⟨job, writer, run, reset⟩ := h.grantable
    exact State.Grantable.arbitrate ⟨job, writer, run, reset⟩
  | rebuilding _ hidle =>
    obtain ⟨job, writer, run, reset⟩ := h.grantable
    refine State.Grantable.arbitrate ⟨job, writer, fun hr => ?_, reset⟩
    refine iff_of_false (fun hgrant => ?_) nofun
    obtain hrun | hrun := (run hr).mp hgrant
    · rw [hidle] at hrun
      cases hrun
    · rw [hidle] at hrun
      cases hrun
  | aborted =>
    obtain ⟨numbered, apart, ⟨hwriter, hrun, hfree, hreset⟩, plan⟩ := h
    refine ⟨numbered, apart, ⟨hwriter, hrun, fun hgrant => ?_, hreset⟩, plan⟩
    obtain ⟨hq, hpending⟩ := hfree hgrant
    refine ⟨?_, hpending⟩
    show s.burnQueue.filter _ = []
    rw [hq]
    rfl
  | unchanged => exact h
  | watching => exact h
  | noticeRead => exact h
  | staged => exact h
  | dropped => exact h
  | cleared => exact h
  | overlaid => exact h
  | uncovered => exact h
  | counters => exact h

/-! ### The installs -/

theorem State.figuresLaw_installJournal (s : State) (m : Memory) :
    (s.installJournal (replayRun m WorkingResult.defaults)).figuresLaw :=
  ⟨(replayRun_accounts m).seqs, replayRun_slotsUsed_le m WorkingResult.defaults, highwater_le m _ _⟩

/-- While a run goes on the writer serves no job (R44). -/
theorem State.journalLaw.idle_of_run {s : State} (h : s.journalLaw) (hreset : s.resetAsserted = false)
    (hrun : s.replay = .startup ∨ s.replay = .rebuilding) : s.writer = .idle ∧ s.active = none := by
  obtain ⟨-, -, ⟨hwriter, hreplay, -, -⟩, ⟨hactive, -⟩⟩ := h
  have hidle : s.writer = .idle := by
    by_contra hbusy
    have hgrant := hwriter.mpr hbusy
    rw [(hreplay hreset).mpr hrun] at hgrant
    cases hgrant
  exact ⟨hidle, hactive.mpr hidle⟩

theorem State.journalLaw_startup {s : State} (h : s.journalLaw) (htable : s.tableLaw) (hreset : s.resetAsserted = false)
    (hreplay : s.replay = .startup) : s.installStartup.endRun.journalLaw := by
  obtain ⟨hidle, hactive⟩ := h.idle_of_run hreset (.inl hreplay)
  have hfigures := s.figuresLaw_installJournal s.array
  refine State.journalLaw_resolveGrant (State.jobLaw_of_idle ?_ hidle hactive) hidle hreset (.inl rfl)
  rw [← State.defaultsOf_eq htable.2.2] at hfigures
  exact hfigures

theorem State.journalLaw_rebuild {s : State} (h : s.journalLaw) (htable : s.tableLaw) (hreset : s.resetAsserted = false)
    (hreplay : s.replay = .rebuilding) : s.installRebuild.endRun.journalLaw := by
  obtain ⟨hidle, hactive⟩ := h.idle_of_run hreset (.inr hreplay)
  have hfigures := s.figuresLaw_installJournal s.array
  rw [← State.defaultsOf_eq htable.2.2] at hfigures
  rw [State.endRun, State.installRebuild, State.postRebuild_eq]
  exact State.journalLaw_resolveGrant (State.jobLaw_of_idle hfigures hidle hactive) hidle hreset (.inl rfl)

/-! ### Every step -/

/-- No run goes on while RESET is asserted (R77). -/
def State.noRunUnderReset (s : State) : Prop :=
  s.resetAsserted = true → s.replay ≠ .startup ∧ s.replay ≠ .rebuilding

/-- Under RESET the Replay Engine holds the array, so that the arbiter has nothing to grant. -/
theorem State.journalLaw.grant_of_reset {s : State} (h : s.journalLaw) : s.resetAsserted = true → s.grant = .replay :=
  h.grantable.reset

theorem State.noRunUnderReset_of {s t : State} (h : s.noRunUnderReset) (hreset : t.resetAsserted = s.resetAsserted)
    (hreplay : t.replay = s.replay) : t.noRunUnderReset := by
  rw [State.noRunUnderReset, hreset, hreplay]
  exact h

theorem State.noRunUnderReset_arbitrate {s : State} (h : s.noRunUnderReset)
    (hgrant : s.resetAsserted = true → s.grant = .replay) : s.arbitrate.noRunUnderReset := by
  obtain ⟨_, e⟩ := State.arbitrate_frame s
  have hkeep : s.arbitrate.resetAsserted = s.resetAsserted := by rw [e]
  intro hreset
  rw [hkeep] at hreset
  rw [State.arbitrate_of_held (.inl (hgrant hreset))]
  exact h hreset

theorem State.noRunUnderReset_serve {s : State} (p : Port) (q : Request) (hlaw : s.journalLaw)
    (h : s.noRunUnderReset) : (s.serve p q).1.noRunUnderReset := by
  have hgrant := hlaw.grant_of_reset
  generalize ht : (s.serve p q).1 = t
  have he : ServeEffect s p t := ht ▸ serve_effect s p q
  have hsession : ∀ u : State, (∃ t : State, u = { s with
      overlays := t.overlays, burnQueue := t.burnQueue, active := t.active, requester := t.requester,
      staging := t.staging, session := t.session, link := t.link }) → u.noRunUnderReset := by
    rintro u ⟨_, rfl⟩
    exact h
  cases he with
  | opened => exact hsession (s.endSession p) (s.endSession_frame p)
  | closed => exact hsession (s.endSession p) (s.endSession_frame p)
  | committed => exact State.noRunUnderReset_arbitrate (s := State.enqueue _ _ _) h hgrant
  | revoking => exact State.noRunUnderReset_arbitrate (s := State.enqueue _ _ _) h hgrant
  | rebuilding =>
    exact State.noRunUnderReset_arbitrate (s := { s with replay := .pending, requester := _ })
      (fun _ => ⟨nofun, nofun⟩) hgrant
  | unchanged => exact h
  | watching => exact h
  | noticeRead => exact h
  | staged => exact h
  | dropped => exact h
  | cleared => exact h
  | aborted => exact h
  | overlaid => exact h
  | uncovered => exact h
  | counters => exact h

/-- The laws of the journal with what they rest on: the table law, and no run under RESET. -/
structure State.JournalSound (s : State) : Prop where
  journal : s.journalLaw
  table : s.tableLaw
  reset : s.noRunUnderReset

theorem State.JournalSound.running {s : State} (h : s.JournalSound)
    (hrun : s.replay = .startup ∨ s.replay = .rebuilding) : s.resetAsserted = false := by
  by_contra hreset
  obtain ⟨hstartup, hrebuilding⟩ := h.reset (by simpa using hreset)
  exact hrun.elim hstartup hrebuilding

/-- After the writer's part of a command the arbiter acts, unless RESET holds it. -/
theorem State.JournalSound.granted {s t : State} (h : s.JournalSound) (hjob : t.jobLaw) (ht : t.tableLaw)
    (hwriter : t.writer ≠ .idle → s.writer ≠ .idle)
    (hframe : t.grant = s.grant ∧ t.replay = s.replay ∧ t.resetAsserted = s.resetAsserted) :
    t.arbitrate.JournalSound := by
  obtain ⟨hgrant, hreplay, hreset⟩ := hframe
  obtain ⟨-, writer, run, reset⟩ := h.journal.grantable
  refine ⟨State.Grantable.arbitrate ⟨hjob, fun hw => ?_, ?_, ?_⟩, tableLaw_writerKept.arbitrate ht,
    State.noRunUnderReset_arbitrate (State.noRunUnderReset_of h.reset hreset hreplay) ?_⟩
  · rw [hgrant]
    exact writer (hwriter hw)
  · rw [hgrant, hreplay, hreset]
    exact run
  · rw [hgrant, hreset]
    exact reset
  · rw [hgrant, hreset]
    exact reset

theorem journalSound_pulse {s : State} (taken : Byte) (pause : Bool) (h : s.JournalSound) :
    (s.burnPulse taken pause).arbitrate.JournalSound := by
  have hjob : s.jobLaw := h.journal.grantable.job
  refine h.granted (State.jobLaw_burnPulse hjob taken pause) (tableLaw_writerKept.burnPulse h.table taken pause)
    (fun hbusy hidle => ?_) ?_
  · rw [State.burnPulse, hjob.2.1.mpr hidle] at hbusy
    exact hbusy hidle
  · obtain ⟨_, e⟩ := State.burnPulse_frame s taken pause
    rw [e]
    exact ⟨rfl, rfl, rfl⟩

theorem journalSound_verify {s : State} (a : ActiveJob) (pause : Bool) (hw : s.writer = .verify)
    (h : s.JournalSound) : (s.stepVerify a pause).arbitrate.JournalSound := by
  refine h.granted (State.jobLaw_stepVerify h.journal.grantable.job.1 a pause)
    (tableLaw_writerKept.stepVerify h.table pause) (fun _ hidle => ?_) ?_
  · rw [hw] at hidle
    cases hidle
  · obtain ⟨_, e⟩ := State.stepVerify_frame s a pause
    rw [e]
    exact ⟨rfl, rfl, rfl⟩

theorem journalLaw_reset (s : State) : s.assertReset.journalLaw :=
  ⟨rfl, ⟨Nat.zero_le _, Nat.zero_le _⟩, ⟨iff_of_false nofun fun hne => hne rfl, nofun, nofun, fun _ => rfl⟩,
    iff_of_true rfl rfl, nofun⟩

theorem journalLaw_release {s : State} (x y : StrapPin) (h : s.journalLaw) (hreset : s.resetAsserted = true) :
    (s.releaseReset x y).journalLaw := by
  obtain ⟨numbered, apart, ⟨hwriter, -, -, hheld⟩, plan⟩ := h
  have hgrant := hheld hreset
  refine ⟨numbered, apart, ⟨hwriter, fun _ => iff_of_true hgrant (.inl rfl), fun hfree => ?_, nofun⟩, plan⟩
  have hfree : s.grant = .free := hfree
  rw [hgrant] at hfree
  cases hfree

theorem journalSound_kept : Kept State.JournalSound where
  transport _ _ _ _ h := ⟨h.journal, h.table, h.reset⟩
  cell _ _ h := ⟨h.journal, h.table, h.reset⟩
  burnEn _ _ h := ⟨h.journal, h.table, h.reset⟩
  queue _ _ h := ⟨h.journal, h.table, h.reset⟩
  serve s p q h := ⟨s.journalLaw_serve p q h.journal, s.tableLaw_serve p q h.table,
    State.noRunUnderReset_serve p q h.journal h.reset⟩
  endSession s p h := by
    refine ⟨State.journalLaw_endSession p h.journal, State.tableLaw_endSession p h.table, ?_⟩
    obtain ⟨_, e⟩ := State.endSession_frame s p
    rw [e]
    exact h.reset
  acknowledge _ h := ⟨h.journal, h.table, h.reset⟩
  markSent _ h := ⟨h.journal, h.table, h.reset⟩
  count _ h := ⟨h.journal, h.table, h.reset⟩
  expiry _ h := ⟨h.journal, h.table, h.reset⟩
  pulse _ taken pause h := journalSound_pulse taken pause h
  verify _ a pause hw _ h := journalSound_verify a pause hw h
  startup s hr h := by
    have hreset := h.running (.inl hr)
    refine ⟨State.journalLaw_startup h.journal h.table hreset hr, tableLaw_kept.startup s hr h.table, fun ht => ?_⟩
    obtain ⟨_, e⟩ := State.resolveGrant_frame s.installStartup
    rw [State.endRun, e] at ht
    rw [show s.installStartup.resetAsserted = s.resetAsserted from rfl, hreset] at ht
    cases ht
  rebuild s hr h := by
    have hreset := h.running (.inr hr)
    refine ⟨State.journalLaw_rebuild h.journal h.table hreset hr, tableLaw_kept.rebuild s hr h.table, fun ht => ?_⟩
    obtain ⟨_, e⟩ := State.resolveGrant_frame s.installRebuild
    obtain ⟨_, e'⟩ := State.installRebuild_frame s
    rw [State.endRun, e] at ht
    dsimp only at ht
    rw [e', hreset] at ht
    cases ht
  reset s h := ⟨journalLaw_reset s, tableLaw_kept.reset s h.table, fun _ => ⟨nofun, nofun⟩⟩
  release s x y hr h := ⟨journalLaw_release x y h.journal hr, tableLaw_kept.release s x y hr h.table, nofun⟩

/-- Under RESET the laws are kept without any word on the Replay Engine: no command but the release touches it. -/
theorem journalLaw_of_reset {s t : State} (he : Effect s t) (hreset : s.resetAsserted = true) (h : s.journalLaw) :
    t.journalLaw := by
  obtain rfl | rfl | ⟨cut, rfl⟩ | ⟨x, y, rfl⟩ | ⟨level, rfl⟩ | ⟨m, rfl⟩ := he.of_reset hreset
  · exact h
  · obtain ⟨_, e⟩ := State.settle_frame s
    rw [e]
    exact h
  · exact journalLaw_reset _
  · exact journalLaw_release x y h hreset
  · exact h
  · exact h

/-- Settles O6: outside RESET the laws are kept by each shared operation, and so by every step; under RESET directly. -/
theorem journalLawKept : Obligations.JournalLawKept := by
  intro s t h htable hs
  cases hreset : s.resetAsserted with
  | false =>
    have hsound : s.JournalSound := ⟨h, htable, fun hr => by rw [hreset] at hr; cases hr⟩
    exact (journalSound_kept.step hs hsound).journal
  | true =>
    obtain rfl | ⟨rest, he⟩ := step_effect hs
    · exact h
    · exact journalLaw_of_reset he hreset h

end Sys2Proof.Machine
end

section
/-! PROOF. A law through every command, one shared operation at a time, where it bears on the transports: what each
operation may do to a window's areas, to the link's buffer and bits, and to a handler's service is said once here. -/

namespace Sys2Proof.Machine

/-! ### Areas, link buffer and bits -/

/-- A window that keeps the sizes of its areas (R160). -/
structure Window.KeepsSizes (x y : Window) : Prop where
  request : x.requestArea.length = Config.areaBytes → y.requestArea.length = Config.areaBytes
  response : x.responseArea.length = Config.areaBytes → y.responseArea.length = Config.areaBytes

theorem Window.KeepsSizes.of_eq {x y : Window} (hrequest : y.requestArea = x.requestArea)
    (hresponse : y.responseArea = x.responseArea) : x.KeepsSizes y :=
  ⟨fun h => by rw [hrequest, h], fun h => by rw [hresponse, h]⟩

theorem Window.KeepsSizes.trans {x y z : Window} (h : x.KeepsSizes y) (h' : y.KeepsSizes z) : x.KeepsSizes z :=
  ⟨fun hx => h'.request (h.request hx), fun hx => h'.response (h.response hx)⟩

theorem Window.keepsSizes_endByte (x : Window) : x.KeepsSizes x.endByte := by
  unfold Window.endByte
  split <;> exact .of_eq rfl rfl

theorem Window.KeepsSizes.endByte {x y : Window} (h : x.KeepsSizes y) : x.KeepsSizes y.endByte :=
  h.trans y.keepsSizes_endByte

theorem Window.keepsSizes_take (x : Window) : x.KeepsSizes x.take := by
  unfold Window.take
  split <;> exact .of_eq rfl rfl

theorem Window.keepsSizes_writeRequest (x : Window) (offset : Nat) (data : Byte) :
    x.KeepsSizes (x.writeRequest offset data) := by
  unfold Window.writeRequest
  split
  · exact .of_eq rfl rfl
  · exact ⟨fun h => by rwa [List.length_set], id⟩

theorem Window.keepsSizes_beforeWrite (x : Window) (offset : Byte) : x.KeepsSizes (x.beforeWrite offset) := by
  unfold Window.beforeWrite
  split <;> exact .of_eq rfl rfl

theorem Window.keepsSizes_afterWrite (x : Window) (offset : Byte) : x.KeepsSizes (x.afterWrite offset) := by
  unfold Window.afterWrite
  exact Window.KeepsSizes.endByte (.of_eq rfl rfl)

theorem Window.keepsSizes_readAtPointer (x : Window) : x.KeepsSizes x.readAtPointer := by
  unfold Window.readAtPointer
  exact Window.KeepsSizes.endByte (.of_eq rfl rfl)

theorem Window.keepsSizes_setPointer (x : Window) (byte : Byte) : x.KeepsSizes (x.setPointer byte) := by
  unfold Window.setPointer
  split
  · exact Window.KeepsSizes.endByte (.of_eq rfl rfl)
  · exact .of_eq rfl rfl

theorem Window.keepsSizes_clockOut (x : Window) : x.KeepsSizes x.clockOut := by
  unfold Window.clockOut
  split
  · exact .of_eq rfl rfl
  · exact .of_eq rfl rfl
  · exact x.keepsSizes_readAtPointer

theorem responseFill_length (r : Response) : (responseFill r).length = Config.areaBytes := by
  rw [responseFill, List.length_take, List.length_append, List.length_replicate]
  exact Nat.min_eq_left (Nat.le_add_left _ _)

theorem Window.keepsSizes_takeAnswer (x : Window) (r : Response) : x.KeepsSizes (x.takeAnswer r) :=
  ⟨id, fun _ => responseFill_length r⟩

/-- A link that keeps the size of its buffer, and holds bits in RX alone where it did (R168, section 10.3). -/
structure Link.Steps (l m : Link) : Prop where
  buffer : l.buffer.length = Config.linkBufferBytes → m.buffer.length = Config.linkBufferBytes
  bits : (l.state ≠ .rx → l.rxBits = []) → m.state ≠ .rx → m.rxBits = []

theorem Link.Steps.of_eq {l m : Link} (hbuffer : m.buffer = l.buffer) (hstate : m.state = l.state)
    (hbits : m.rxBits = l.rxBits) : l.Steps m :=
  ⟨fun h => by rw [hbuffer, h], fun h => by rw [hstate, hbits]; exact h⟩

/-- A link with no bits of a frame. -/
theorem Link.Steps.of_noBits {l m : Link} (hbuffer : m.buffer = l.buffer) (hbits : m.rxBits = []) : l.Steps m :=
  ⟨fun h => by rw [hbuffer, h], fun _ _ => hbits⟩

/-- A link that leaves a state other than RX. -/
theorem Link.Steps.of_leaves {l m : Link} (hbuffer : m.buffer = l.buffer) (hstate : l.state ≠ .rx)
    (hbits : m.rxBits = l.rxBits) : l.Steps m :=
  ⟨fun h => by rw [hbuffer, h], fun h _ => hbits.trans (h hstate)⟩

theorem loadBuffer_length {buffer : Bytes} (bytes : Bytes) (h : buffer.length = Config.linkBufferBytes) :
    (loadBuffer buffer bytes).length = Config.linkBufferBytes := by
  rw [loadBuffer, List.length_append, List.length_take, List.length_drop, h]
  omega

theorem Link.steps_load (l : Link) (bytes : Bytes) : l.Steps { l with buffer := loadBuffer l.buffer bytes } :=
  ⟨loadBuffer_length bytes, id⟩

theorem Link.steps_takeAnswer (l : Link) : l.Steps l.takeAnswer := by
  unfold Link.takeAnswer
  split <;> exact .of_eq rfl rfl rfl

/-- The end mark of the frame in TX (R173). -/
theorem Link.steps_endSend {l : Link} (h : l.state = .tx) : l.Steps l.endSend := by
  have hstate : l.state ≠ .rx := by rw [h]; exact nofun
  unfold Link.endSend
  dsimp only
  split
  · split <;> exact .of_leaves rfl hstate rfl
  · split <;> exact .of_leaves rfl hstate rfl
  · exact .of_leaves rfl hstate rfl
  · exact .of_leaves rfl hstate rfl

/-- A handler that does not come to wait with a request for its block, but where it did so already. -/
def Handler.DoesNotWait (h h' : Handler) : Prop :=
  h'.state = .executing → h'.service ≠ .waiting ∨ h.state = .executing ∧ h.service = .waiting

/-! ### The walk -/

/-- A law kept by each shared operation, on a part whose RESET is released where the operation asks it. -/
structure Walk (P : State → Prop) : Prop where
  cell : ∀ s array, P s → P { s with array := array }
  burnEn : ∀ s level, P s → P { s with burnEn := level }
  queue : ∀ s rest, P s → P { s with pending := rest }
  settle : ∀ s, P s → P s.settle
  window : ∀ s w x, (s.window.get w).KeepsSizes x → P s → P (s.setWindow w x)
  link : ∀ s l, s.link.Steps l → P s → P (s.setLink l)
  handler : ∀ s p h, (s.handler.get p).DoesNotWait h → P s → P (s.setHandler p h)
  deliver : ∀ s p r, s.resetAsserted = false → P s → P (s.deliver p r)
  serve : ∀ s p q, s.resetAsserted = false → (s.handler.get p).state = .executing →
    (s.handler.get p).service = .waiting → P s → P (s.serve p q).1
  endSession : ∀ s p, s.resetAsserted = false → P s → P (s.endSession p)
  acknowledge : ∀ s, (s.session.get .port2).isOpen = true → P s →
    P (s.setSession .port2 (s.session.get .port2).acknowledge)
  markSent : ∀ s, (s.session.get .port2).isOpen = true → P s →
    P (s.setSession .port2 (s.session.get .port2).markSent)
  count : ∀ s, P s → P s.countTick
  expiry : ∀ s, P s → P s.expireOverlays
  pulse : ∀ s taken pause, s.resetAsserted = false → P s → P (s.burnPulse taken pause).arbitrate
  verify : ∀ s a pause, s.resetAsserted = false → s.active = some a → P s →
    P (s.stepVerify a pause).arbitrate
  startup : ∀ s, s.resetAsserted = false → s.replay = .startup → P s → P s.installStartup.endRun
  rebuild : ∀ s, s.resetAsserted = false → s.replay = .rebuilding → P s → P s.installRebuild.endRun
  reset : ∀ s, P s → P s.assertReset
  release : ∀ s strap0 strap1, s.resetAsserted = true → P s → P (s.releaseReset strap0 strap1)

theorem State.landByte_resetAsserted (s : State) (w : WindowPort) (offset data : Byte) :
    (s.landByte w offset data).resetAsserted = s.resetAsserted := by
  obtain ⟨_, e⟩ := State.landByte_frame s w offset data
  rw [e]

theorem State.landBytes_resetAsserted (s : State) (w : WindowPort) (offset : Byte) (bytes : Bytes) :
    (s.landBytes w offset bytes).resetAsserted = s.resetAsserted := by
  obtain ⟨_, e⟩ := State.landBytes_frame s w offset bytes
  rw [e]

theorem State.withinFrame?_resetAsserted {s u : State} (hu : s.withinFrame? = some u) :
    u.resetAsserted = s.resetAsserted := by
  obtain ⟨_, e⟩ := State.withinFrame?_frame s u hu
  rw [e]

theorem State.settle_resetAsserted (s : State) : s.settle.resetAsserted = s.resetAsserted := by
  obtain ⟨_, e⟩ := State.settle_frame s
  rw [e]

/-- A command that a part under RESET does not take. -/
theorem State.of_running {P : State → Prop} {s t : State} {f : State → State}
    (h : (Host.Outcome.next (s.running f) : Host.Outcome State Fault Refusal) = .next t) (hs : P s)
    (hf : s.resetAsserted = false → P (f s)) : P t := by
  injection h with h
  subst h
  unfold State.running
  split
  · exact hs
  next hr => exact hf (by simpa using hr)

section
variable {P : State → Prop} (k : Walk P)
include k

theorem Walk.carryCurrent {s : State} (p : Port) (hr : s.resetAsserted = false)
    (hx : (s.handler.get p).state = .executing) (hw : (s.handler.get p).service = .waiting) (h : P s) :
    P (s.carryCurrent p) := by
  unfold State.carryCurrent
  split
  · exact h
  next r _ =>
    split
    · exact h
    next q _ =>
      refine k.handler _ p _ (fun _ => .inl ?_) (k.serve s p q hr hx hw h)
      show (s.serve p q).2.service r.tag ≠ .waiting
      cases (s.serve p q).2 <;> exact nofun

/-! ### Handlers -/

theorem Walk.finished {s : State} (p : Port) (stored : Option Response) (h : P s) :
    P (s.setHandler p ((s.handler.get p).finished stored)) := k.handler s p _ nofun h

theorem Walk.softReset {s : State} (p : Port) (h : P s) : P (s.softReset p) := by
  refine k.handler s p _ (fun hx => ?_) h
  split at hx
  next hidle => exact nomatch hidle ▸ hx
  next hexecuting =>
    rw [hexecuting]
    exact (em ((s.handler.get p).service = .waiting)).symm.imp id fun hw => ⟨rfl, hw⟩

theorem Walk.handOver {s : State} (p : Port) (r : Response) (h : P s) : P (s.handOver p r) := by
  unfold State.handOver
  dsimp only
  split
  next w _ =>
    split
    · exact k.window _ w _ (.of_eq rfl rfl) (k.finished p none h)
    · exact k.window _ w _ (Window.keepsSizes_takeAnswer _ r) (k.finished p none h)
  next =>
    split
    · exact k.finished p none h
    · exact k.link _ _ (Link.steps_takeAnswer _) (k.finished p (some r) h)

theorem Walk.answerReady {s : State} (p : Port) (hr : s.resetAsserted = false) (h : P s) : P (s.answerReady p) := by
  unfold State.answerReady
  split
  · exact h
  next hidle =>
    have hx : (s.handler.get p).state = .executing := by
      cases hstate : (s.handler.get p).state with
      | idle => exact (hidle hstate).elim
      | executing => rfl
    have hcarried : P (if (s.handler.get p).service = .waiting then s.carryCurrent p else s) := by
      split
      next hw => exact k.carryCurrent p hr hx hw h
      next => exact h
    generalize (if (s.handler.get p).service = .waiting then s.carryCurrent p else s) = u at hcarried ⊢
    dsimp only
    split
    · exact k.handOver p _ hcarried
    · exact hcarried

theorem Walk.serveHeldRead {s : State} (p : Port) (h : P s) : P (s.serveHeldRead p) := by
  unfold State.serveHeldRead
  dsimp only
  split
  · split
    · exact h
    · split
      · exact k.handOver p _ h
      · exact h
  · exact h

/-! ### Windows -/

theorem Walk.windowGo {s : State} (w : WindowPort) (hr : s.resetAsserted = false) (h : P s) : P (s.windowGo w) := by
  unfold State.windowGo
  dsimp only
  split
  · exact k.window s w _ (.of_eq rfl rfl) h
  · have hdelivered := k.deliver s w.port (s.window.get w).record hr h
    split
    · exact k.window _ w _ (.of_eq rfl rfl) hdelivered
    · exact k.window _ w _ (.of_eq rfl rfl) hdelivered
    · exact hdelivered

theorem Walk.controlCode {s : State} (w : WindowPort) (code : Byte) (hr : s.resetAsserted = false) (h : P s) :
    P (s.controlCode w code) := by
  unfold State.controlCode
  split
  · exact k.windowGo w hr h
  · split
    · exact k.window s w _ (Window.keepsSizes_take _) h
    · split
      · exact k.softReset w.port (k.endSession _ w.port hr (k.window s w _ (.of_eq rfl rfl) h))
      · exact k.window s w _ (.of_eq rfl rfl) h

theorem Walk.landByte {s : State} (w : WindowPort) (offset data : Byte) (hr : s.resetAsserted = false) (h : P s) :
    P (s.landByte w offset data) := by
  unfold State.landByte
  refine k.window _ w _ (Window.keepsSizes_afterWrite _ _) ?_
  split
  · exact k.controlCode w data hr h
  · split
    · exact k.window s w _ (.of_eq rfl rfl) h
    · split
      · exact k.window s w _ (Window.keepsSizes_writeRequest _ _ _) h
      · exact h

theorem Walk.landBytes (w : WindowPort) (offset : Byte) (bytes : Bytes) {s : State} (hr : s.resetAsserted = false)
    (h : P s) : P (s.landBytes w offset bytes) := by
  induction bytes generalizing s offset with
  | nil => exact h
  | cons b rest ih => exact ih _ ((s.landByte_resetAsserted w offset b).trans hr) (k.landByte w offset b hr h)

theorem Walk.windowWrite {s : State} (w : WindowPort) (offset data : Byte) (hr : s.resetAsserted = false) (h : P s) :
    P (s.windowWrite w offset data) := by
  unfold State.windowWrite
  dsimp only
  split
  · exact k.window s w _ (Window.keepsSizes_readAtPointer _) h
  · exact k.landByte w offset data hr (k.window s w _ (Window.keepsSizes_beforeWrite _ _) h)

theorem Walk.submitToWindow {s : State} (w : WindowPort) (r : Record) (hr : s.resetAsserted = false) (h : P s) :
    P (s.submitToWindow w r) :=
  k.landByte w _ _ ((State.landBytes_resetAsserted _ w 0x10 r.bytes).trans hr)
    (k.landBytes w _ _ hr (k.window s w _ (.of_eq rfl rfl) h))

/-! ### The link -/

theorem Walk.takeStartMark {s : State} (h : P s) : P s.takeStartMark := by
  unfold State.takeStartMark
  split
  · exact k.link s _ (.of_noBits rfl rfl) h
  · dsimp only
    split <;> exact k.link s _ (.of_noBits rfl rfl) h
  · exact k.link s _ (.of_noBits rfl rfl) h
  · exact h

theorem Walk.withinFrame? {s u : State} (hu : s.withinFrame? = some u) (h : P s) : P u := by
  unfold State.withinFrame? at hu
  split at hu
  · exact Option.some.inj hu ▸ h
  · exact Option.some.inj hu ▸ k.takeStartMark h
  · exact Option.some.inj hu ▸ k.takeStartMark h
  · cases hu

theorem Walk.setPending {s : State} (a : Option PendingAnswer) (h : P s) : P (s.setPending a) :=
  k.link s _ (.of_eq rfl rfl rfl) h

theorem Walk.takeFrame {s : State} (type : FrameType) (tag code : Byte) (payload : Bytes)
    (hr : s.resetAsserted = false) (h : P s) : P (s.takeFrame type tag code payload) := by
  unfold State.takeFrame
  split
  · unfold State.takeReq
    dsimp only
    split
    · exact k.setPending _ h
    · split
      · exact k.setPending _ h
      · exact k.setPending _ (k.deliver s .port2 _ hr h)
  · unfold State.takeAck
    dsimp only
    split
    · exact h
    · split
      next htaken => exact k.link _ _ (.of_eq rfl rfl rfl) (k.acknowledge s htaken.1 h)
      next => exact h
  · exact k.setPending _ (k.softReset .port2 (k.endSession s .port2 hr h))
  · exact h

theorem Walk.endFrame {s : State} (next : LinkState) (h : P s) : P (s.endFrame next) :=
  k.link s _ (.of_noBits rfl rfl) h

theorem Walk.discardFrame {s : State} (ending : FrameEnd) (h : P s) : P (s.discardFrame ending) :=
  k.endFrame _ (k.link s _ (.of_eq rfl rfl rfl) h)

theorem Walk.receiveWhole {s : State} (type : FrameType) (tag code : Byte) (payload : Bytes)
    (hr : s.resetAsserted = false) (h : P s) : P (s.receiveWhole type tag code payload) := by
  unfold State.receiveWhole
  split
  · exact h
  next u hu =>
    have hbuffered := k.link u _ (Link.steps_load _ (frameBytes type tag code payload)) (k.withinFrame? hu h)
    dsimp only
    split
    · exact k.endFrame _ (k.takeFrame type tag code payload ((State.withinFrame?_resetAsserted hu).trans hr) hbuffered)
    · exact k.discardFrame _ hbuffered

theorem Walk.receiveBytes {s : State} (bytes : Bytes) (ending : FrameEnd) (hr : s.resetAsserted = false) (h : P s) :
    P (s.receiveBytes bytes ending) := by
  unfold State.receiveBytes
  split
  · exact h
  next u hu =>
    have hbuffered := k.link u _ (Link.steps_load _ bytes) (k.withinFrame? hu h)
    dsimp only
    split
    · exact k.endFrame _ (k.takeFrame _ _ _ _ ((State.withinFrame?_resetAsserted hu).trans hr) hbuffered)
    · exact k.discardFrame _ hbuffered

theorem Walk.completeTurnaround {s : State} (h : P s) : P s.completeTurnaround := by
  unfold State.completeTurnaround
  split
  · exact h
  next hturn =>
    have hstate : s.link.state ≠ .rx := by
      rw [not_not.mp hturn]
      exact nofun
    have hsend : ∀ (u : State) (sending : Sending) (bytes : Bytes), u.link = s.link → P u →
        P (u.beginSend sending bytes) := fun u sending bytes hlink hu => by
      refine k.link u _ ⟨loadBuffer_length bytes, fun hbits _ => ?_⟩ hu
      rw [hlink] at hbits ⊢
      exact hbits hstate
    split
    · exact hsend s _ _ rfl h
    · exact hsend s _ _ rfl h
    · split
      next hready =>
        have hopen : (s.session.get .port2).isOpen = true := by
          simp only [State.noteReady, Bool.and_eq_true] at hready
          exact hready.1.1
        unfold State.beginNote
        dsimp only
        split
        · exact k.link s _ (.of_leaves rfl hstate rfl) h
        · exact hsend _ _ _ rfl (k.markSent s hopen h)
      next => exact k.link s _ (.of_leaves rfl hstate rfl) h

theorem Walk.loseLink {s : State} (next : LinkState) (hr : s.resetAsserted = false) (h : P s) : P (s.loseLink next) :=
  k.endSession _ .port2 hr (k.softReset .port2 (k.link s _ (.of_noBits rfl rfl) h))

theorem Walk.holdLow {s : State} (hr : s.resetAsserted = false) (h : P s) : P s.holdLow := by
  unfold State.holdLow
  split
  · exact h
  · exact h
  · exact k.loseLink _ hr h

theorem Walk.releaseLine {s : State} (h : P s) : P s.releaseLine := by
  unfold State.releaseLine
  split
  next hlow => exact k.link s _ (.of_leaves rfl (by rw [hlow]; exact nofun) rfl) h
  next => exact h

theorem Walk.expireTimer {s : State} (hr : s.resetAsserted = false) (h : P s) : P s.expireTimer := by
  unfold State.expireTimer
  split
  · split
    · exact k.link s _ (.of_eq rfl rfl rfl) h
    · exact k.loseLink _ hr h
  · exact h

theorem Walk.tick {s : State} (hr : s.resetAsserted = false) (h : P s) : P s.tick := by
  have hdue : P (if s.overlays.any (·.due) then s.expireOverlays.settle else s) ∧
      (if s.overlays.any (·.due) then s.expireOverlays.settle else s).resetAsserted = false := by
    split
    · exact ⟨k.settle _ (k.expiry s h), (State.settle_resetAsserted _).trans hr⟩
    · exact ⟨h, hr⟩
  refine k.count _ ?_
  unfold State.takeDue
  generalize (if s.overlays.any (·.due) then s.expireOverlays.settle else s) = u at hdue ⊢
  dsimp only
  split
  · exact k.settle _ (k.expireTimer hdue.2 hdue.1)
  · exact hdue.1

theorem Walk.takeLow {s : State} (ns : Nat) (hr : s.resetAsserted = false) (h : P s) : P (s.takeLow ns) := by
  have hbit : ∀ bit, s.link.state = .rx → P (s.takeBit bit) := fun bit hrx =>
    k.link s _ ⟨loadBuffer_length _, fun _ hleft => (hleft hrx).elim⟩ h
  unfold State.takeLow
  split
  · exact k.takeStartMark h
  · exact k.holdLow hr h
  · exact h
  · split
    next hrx => exact hbit false hrx
    next => exact h
  · split
    next hrx => exact hbit true hrx
    next => exact h
  · split
    · unfold State.takeEndMark
      split
      · exact k.receiveBytes _ _ hr h
      · exact k.discardFrame _ h
    · exact h
  · split
    · exact k.discardFrame _ h
    · exact h

/-! ### Requests -/

theorem Walk.request {s : State} (p : Port) (r : Record) (hr : s.resetAsserted = false) (h : P s) :
    P (s.request p r) := by
  have hsubmitted : P (s.submitOnce p r) := by
    unfold State.submitOnce State.submit
    split
    · exact h
    · split
      · exact k.submitToWindow _ r hr h
      · exact k.receiveWhole _ _ _ _ hr h
  obtain ⟨_, e⟩ := State.submitOnce_frame s p r
  have hreset : (s.submitOnce p r).resetAsserted = false := by rw [e]; exact hr
  unfold State.request State.carryOnce
  split
  next hawaits =>
    simp only [State.awaits, Bool.and_eq_true, decide_eq_true_eq] at hawaits
    obtain ⟨⟨hx, -⟩, hw⟩ := hawaits
    exact k.carryCurrent p hreset hx hw hsubmitted
  next => exact hsubmitted

/-! ### Commands -/

/-- The law holds after whatever a command does. -/
theorem Walk.exec {c : Instr} {s t : State} (h : Machine.exec c s = .next t) (hs : P s) : P t := by
  cases c
  case verify =>
    refine State.of_running h hs fun hr => ?_
    split
    next a _ ha => exact k.settle _ (k.verify s a _ hr ha hs)
    next => exact k.settle s hs
  case startupReplayDone =>
    refine State.of_running h hs fun hr => ?_
    split
    next hreplay => exact k.settle _ (k.startup s hr hreplay hs)
    next => exact k.settle s hs
  case rebuildInstall =>
    refine State.of_running h hs fun hr => ?_
    split
    next hreplay => exact k.settle _ (k.rebuild s hr hreplay hs)
    next => exact k.settle s hs
  case frameSendComplete =>
    refine State.of_running h hs fun hr => ?_
    split
    next htx => exact k.settle _ (k.link s _ (Link.steps_endSend htx) hs)
    next => exact k.settle s hs
  case deviceReset cut =>
    injection h with h
    subst h
    refine k.reset _ ?_
    rw [s.cutPulse_frame cut]
    exact k.cell s _ hs
  case resetRelease x y =>
    injection h with h
    subst h
    split
    next hr => exact k.release s x y hr hs
    next => exact hs
  case burnEnChange level =>
    injection h with h
    subst h
    exact k.burnEn s level hs
  case cellBitGain offset bits =>
    simp only [Machine.exec, execCellBitGain] at h
    split at h
    · injection h with h
      subst h
      exact k.cell s _ hs
    · cases h
  case heldJournalReadServed p => exact State.of_running h hs fun _ => k.settle _ (k.serveHeldRead p hs)
  case answerReady p => exact State.of_running h hs fun hr => k.settle _ (k.answerReady p hr hs)
  case windowPointerSet w byte =>
    exact State.of_running h hs fun _ => k.settle _ (k.window s w _ (Window.keepsSizes_setPointer _ _) hs)
  case windowByteRead w =>
    exact State.of_running h hs fun _ => k.settle _ (k.window s w _ (Window.keepsSizes_clockOut _) hs)
  case req => exact State.of_running h hs fun hr => k.settle _ (k.receiveWhole _ _ _ _ hr hs)
  case ack => exact State.of_running h hs fun hr => k.settle _ (k.receiveWhole _ _ _ _ hr hs)
  case resetFrame => exact State.of_running h hs fun hr => k.settle _ (k.receiveWhole _ _ _ _ hr hs)
  case frameDiscarded => exact State.of_running h hs fun hr => k.settle _ (k.receiveBytes _ _ hr hs)
  case turnaroundComplete => exact State.of_running h hs fun _ => k.settle _ (k.completeTurnaround hs)
  case ackTimerExpiry => exact State.of_running h hs fun hr => k.settle _ (k.expireTimer hr hs)
  case linkLoss => exact State.of_running h hs fun hr => k.settle _ (k.holdLow hr hs)
  case linkLineReleased => exact State.of_running h hs fun _ => k.settle _ (k.releaseLine hs)
  case startMark => exact State.of_running h hs fun _ => k.settle _ (k.takeStartMark hs)
  case preambleOrNoise => exact State.of_running h hs fun hr => k.settle _ (k.takeLow _ hr hs)
  case burnPulse taken => exact State.of_running h hs fun hr => k.settle _ (k.pulse s taken _ hr hs)
  case timebaseTick => exact State.of_running h hs fun hr => k.settle _ (k.tick hr hs)
  case overlayExpired => exact State.of_running h hs fun _ => k.settle _ (k.expiry s hs)
  case go => exact State.of_running h hs fun hr => k.settle _ (k.windowWrite _ _ _ hr hs)
  case take => exact State.of_running h hs fun hr => k.settle _ (k.windowWrite _ _ _ hr hs)
  case portReset => exact State.of_running h hs fun hr => k.settle _ (k.windowWrite _ _ _ hr hs)
  case unknownControlCode => exact State.of_running h hs fun hr => k.settle _ (k.windowWrite _ _ _ hr hs)
  case requestAreaWrite => exact State.of_running h hs fun hr => k.settle _ (k.windowWrite _ _ _ hr hs)
  case attnEnableWrite => exact State.of_running h hs fun hr => k.settle _ (k.windowWrite _ _ _ hr hs)
  case windowWriteIgnored => exact State.of_running h hs fun hr => k.settle _ (k.windowWrite _ _ _ hr hs)
  all_goals exact State.of_running h hs fun hr => k.settle _ (k.request _ _ hr hs)

/-- The law holds after every step. -/
theorem Walk.step {s t : State} (h : Machine.step s = .next t) (hs : P s) : P t := by
  unfold Machine.step at h
  split at h
  · injection h with h
    exact h ▸ hs
  next c rest _ => exact k.exec h (k.queue s rest hs)

end

end Sys2Proof.Machine
end

section
/-! PROOF. What follows every event: the ATTN lines and the idle link (R165, R170), with the sizes of the ports'
memories (R160, section 10.3). -/

namespace Sys2Proof.Machine

/-! ### What settle leaves -/

theorem State.settleLink_link (s : State) :
    s.settleLink.link =
      if s.link.state = .idle ∧ s.sendable = true then { s.link with state := .turn } else s.link := by
  unfold State.settleLink
  split <;> rfl

theorem State.settleLink_session (s : State) : s.settleLink.session = s.session := by
  obtain ⟨_, e⟩ := State.settleLink_frame s
  rw [e]

theorem State.settleLink_window (s : State) : s.settleLink.window = s.window := by
  obtain ⟨_, e⟩ := State.settleLink_frame s
  rw [e]

theorem State.attnHolds_congr {s t : State} (hwindow : t.window = s.window) (hsession : t.session = s.session)
    (w : WindowPort) : t.attnHolds w = s.attnHolds w := by
  simp only [State.attnHolds, hwindow, hsession]

theorem State.settle_eq (s : State) :
    s.settle =
      { s with
        link := if s.link.state = .idle ∧ s.sendable = true then { s.link with state := .turn } else s.link
        window :=
          ⟨{ s.window.window0 with attn := s.attnHolds .window0 },
           { s.window.window1 with attn := s.attnHolds .window1 }⟩ } := by
  have hholds : ∀ w, s.settleLink.attnHolds w = s.attnHolds w :=
    State.attnHolds_congr s.settleLink_window s.settleLink_session
  unfold State.settle State.settleAttn
  rw [hholds, hholds]
  unfold State.settleLink
  split <;> rfl

/-- The two laws of the lines that settle restores (R165, R170). -/
def State.linesSettled (s : State) : Prop := s.attnLaw ∧ (s.link.state = .idle → s.sendable = false)

theorem State.settle_linesSettled (s : State) : s.settle.linesSettled := by
  rw [State.settle_eq]
  refine ⟨fun w => by cases w <;> rfl, ?_⟩
  split
  next => exact nofun
  next hno =>
    intro hidle
    have hsendable : s.sendable ≠ true := fun hsends => hno ⟨hidle, hsends⟩
    exact Bool.eq_false_iff.mpr hsendable

/-- Under RESET no port has a notice or an answer. -/
theorem State.assertReset_linesSettled (s : State) : s.assertReset.linesSettled := by
  refine ⟨fun w => ?_, fun _ => rfl⟩
  have hqueue : (s.assertReset.session.get w.port).queue = [] := by cases w <;> rfl
  have hstate : (s.assertReset.window.get w).state = .starting := by cases w <;> rfl
  have hattn : (s.assertReset.window.get w).attn = false := by cases w <;> rfl
  simp [State.attnHolds, hqueue, hstate, hattn]

/-- The lines stand as their conditions have them after every command. -/
theorem Effect.linesSettled {s t : State} (he : Effect s t) (h : s.linesSettled) : t.linesSettled := by
  cases he with
  | unchanged => exact h
  | deviceReset cut => exact State.assertReset_linesSettled _
  | resetRelease strap0 strap1 _ =>
    obtain ⟨hattn, hidle⟩ := h
    refine ⟨fun w => ?_, hidle⟩
    have hw := hattn w
    cases w <;> exact hw
  | burnEn level => exact h
  | cellGain offset bits => exact h
  | _ => exact State.settle_linesSettled _

/-! ### Sizes and bits -/

/-- The sizes of the ports' memories, and bits of a frame in RX alone (R160, R168, section 10.3). -/
def State.portsSized (s : State) : Prop := s.areasSized ∧ (s.link.state ≠ .rx → s.link.rxBits = [])

theorem State.portsSized.congr {s t : State} (h : s.portsSized) (hwindow : t.window = s.window)
    (hlink : t.link = s.link) : t.portsSized := by
  unfold State.portsSized State.areasSized at h ⊢
  rwa [hwindow, hlink]

theorem State.portsSized.setWindows {s t : State} (h : s.portsSized)
    (hwindow : ∀ w, (s.window.get w).KeepsSizes (t.window.get w)) (hlink : t.link = s.link) : t.portsSized := by
  obtain ⟨⟨hareas, hbuffer⟩, hbits⟩ := h
  refine ⟨⟨fun w => ⟨(hwindow w).request (hareas w).1, (hwindow w).response (hareas w).2⟩, ?_⟩, ?_⟩
  · rwa [hlink]
  · rwa [hlink]

theorem State.portsSized.setLink {s t : State} (h : s.portsSized) (hwindow : t.window = s.window)
    (hlink : s.link.Steps t.link) : t.portsSized := by
  obtain ⟨⟨hareas, hbuffer⟩, hbits⟩ := h
  exact ⟨⟨hwindow ▸ hareas, hlink.buffer hbuffer⟩, hlink.bits hbits⟩

theorem PerWindow.keepsSizes_set (x : PerWindow Window) {w : WindowPort} {y : Window}
    (h : (x.get w).KeepsSizes y) (v : WindowPort) : (x.get v).KeepsSizes ((x.set w y).get v) := by
  rw [PerWindow.get_set]
  split
  next hv => exact hv ▸ h
  next => exact .of_eq rfl rfl

theorem State.settleLink_portsSized {s : State} (h : s.portsSized) : s.settleLink.portsSized := by
  refine h.setLink s.settleLink_window ?_
  rw [State.settleLink_link]
  split
  next hidle => exact .of_leaves rfl (by rw [hidle.1]; exact nofun) rfl
  next => exact .of_eq rfl rfl rfl

theorem State.settle_portsSized {s : State} (h : s.portsSized) : s.settle.portsSized :=
  (State.settleLink_portsSized h).setWindows (fun w => by cases w <;> exact .of_eq rfl rfl) rfl

theorem State.endSession_link_steps (s : State) (p : Port) : s.link.Steps (s.endSession p).link := by
  cases hopen : (s.session.get p).isOpen with
  | false =>
    rw [State.endSession_of_closed hopen]
    exact .of_eq rfl rfl rfl
  | true =>
    rw [State.endSession_of_open hopen]
    show s.link.Steps (s.sessionEnded p).link
    unfold State.sessionEnded
    dsimp only
    split <;> exact .of_eq rfl rfl rfl

theorem State.endSession_window (s : State) (p : Port) : (s.endSession p).window = s.window := by
  obtain ⟨_, e⟩ := State.endSession_frame s p
  rw [e]

theorem State.arbitrate_portsSized {s : State} (h : s.portsSized) : s.arbitrate.portsSized := by
  obtain ⟨_, e⟩ := State.arbitrate_frame s
  rw [e]
  exact h

theorem State.serve_portsSized {s : State} (p : Port) (q : Request) (h : s.portsSized) :
    (s.serve p q).1.portsSized := by
  have hended : (s.endSession p).portsSized := h.setLink (s.endSession_window p) (s.endSession_link_steps p)
  generalize ht : (s.serve p q).1 = u
  have he : ServeEffect s p u := ht ▸ serve_effect s p q
  clear ht
  cases he
  case opened => exact hended
  case closed => exact hended
  case committed => exact State.arbitrate_portsSized h
  case revoking => exact State.arbitrate_portsSized h
  case rebuilding => exact State.arbitrate_portsSized h
  all_goals exact h

theorem Window.keepsSizes_startupInstall (x : Window) (disabled executing : Bool) :
    x.KeepsSizes (x.startupInstall disabled executing) := by
  unfold Window.startupInstall
  split <;> exact .of_eq rfl rfl

theorem Link.steps_startupInstall (l : Link) (ackWindow : Nat) (disabled : Bool) :
    l.Steps (l.startupInstall ackWindow disabled) := by
  unfold Link.startupInstall
  split
  · exact .of_noBits rfl rfl
  · exact .of_eq rfl rfl rfl

theorem State.resolveGrant_portsSized {s : State} (h : s.portsSized) : s.resolveGrant.portsSized := by
  obtain ⟨_, e⟩ := State.resolveGrant_frame s
  rw [e]
  exact h

theorem State.installStartup_portsSized {s : State} (h : s.portsSized) : s.installStartup.portsSized :=
  State.portsSized.setWindows (s := { s with link := s.installStartup.link })
    (h.setLink rfl (Link.steps_startupInstall _ _ _))
    (fun w => by cases w <;> exact Window.keepsSizes_startupInstall _ _ _) rfl

theorem State.assertReset_portsSized (s : State) : s.assertReset.portsSized :=
  ⟨⟨fun w => by cases w <;> exact ⟨rfl, rfl⟩, rfl⟩, fun _ => rfl⟩

theorem portsSized_walk : Walk State.portsSized where
  cell _ _ h := h
  burnEn _ _ h := h
  queue _ _ h := h
  settle _ h := State.settle_portsSized h
  window _ _ _ hx h := h.setWindows (PerWindow.keepsSizes_set _ hx) rfl
  link _ _ hl h := h.setLink rfl hl
  handler _ _ _ _ h := h
  deliver _ _ _ _ h := h
  serve _ p q _ _ _ h := State.serve_portsSized p q h
  endSession s p _ h := h.setLink (s.endSession_window p) (s.endSession_link_steps p)
  acknowledge _ _ h := h
  markSent _ _ h := h
  count _ h := h.setLink rfl (.of_eq rfl rfl rfl)
  expiry _ h := h
  pulse s taken pause _ h := by
    refine State.arbitrate_portsSized ?_
    obtain ⟨_, e⟩ := State.burnPulse_frame s taken pause
    rw [e]
    exact h
  verify s a pause _ _ h := by
    refine State.arbitrate_portsSized ?_
    obtain ⟨_, e⟩ := State.stepVerify_frame s a pause
    rw [e]
    exact h
  startup _ _ _ h := State.resolveGrant_portsSized (State.installStartup_portsSized h)
  rebuild s _ _ h := by
    refine State.resolveGrant_portsSized ?_
    obtain ⟨_, e⟩ := State.installRebuild_frame s
    rw [e]
    exact h
  reset s _ := s.assertReset_portsSized
  release _ _ _ _ h := h.setWindows (fun w => by cases w <;> exact .of_eq rfl rfl) rfl

/-- Settles O14: the sizes and the bits by the walk, the lines because every command but the inputs of the part ends in
`settle`; and what `settle` does, its conditions written out. -/
theorem linesFollow : Obligations.LinesFollow := by
  refine ⟨fun s t hattn hlink hsized hstep => ?_, fun s => ?_⟩
  · obtain ⟨hidle, hbits⟩ := hlink
    obtain ⟨hsized', hbits'⟩ : t.portsSized := portsSized_walk.step hstep ⟨hsized, hbits⟩
    have hlines : t.linesSettled := by
      rcases step_effect hstep with rfl | ⟨rest, he⟩
      · exact ⟨hattn, hidle⟩
      · exact he.linesSettled ⟨hattn, hidle⟩
    obtain ⟨hattn', hidle'⟩ := hlines
    exact ⟨hattn', ⟨hidle', hbits'⟩, hsized'⟩
  · intro u sends attn
    have hsends : s.sendable = sends := by
      rw [Bool.eq_iff_iff]
      simp [State.sendable, State.noteReady, Config.maxSends, sends, u, Option.isSome_iff_ne_none, and_assoc]
    have hattn : ∀ w, s.attnHolds w = attn (s.window.get w) (s.session.get w.port) := fun w => by
      rw [Bool.eq_iff_iff]
      simp [State.attnHolds, attn]
    rw [State.settle_eq, hsends, hattn, hattn]
    rfl

end Sys2Proof.Machine
end

section
/-! PROOF. Until the start-up replay installs, the part holds nothing of any host (R78, R147). -/

namespace Sys2Proof.Machine

/-- RESET is asserted or the start-up replay has not installed. -/
def State.starting (s : State) : Prop := s.resetAsserted = true ∨ s.replay = .startup

theorem State.startupLaw.of_awake {s : State} (hreset : s.resetAsserted = false) (hreplay : s.replay ≠ .startup) :
    s.startupLaw := fun hstart => hstart.elim (fun h => nomatch hreset.symm.trans h) fun h => (hreplay h).elim

/-- An operation that leaves RESET and the replay state alone, and a blank part blank. -/
theorem State.startupLaw.of_same {s t : State} (h : s.startupLaw) (hreset : t.resetAsserted = s.resetAsserted)
    (hreplay : t.replay = s.replay) (hblank : s.blank → t.blank) : t.startupLaw := fun hstart => by
  rw [hreset, hreplay] at hstart
  exact hblank (h hstart)

/-! ### A part whose start-up replay has installed -/

theorem State.arbitrate_resetAsserted (s : State) : s.arbitrate.resetAsserted = s.resetAsserted := by
  obtain ⟨_, e⟩ := State.arbitrate_frame s
  rw [e]

theorem State.resolveGrant_resetAsserted (s : State) : s.resolveGrant.resetAsserted = s.resetAsserted := by
  obtain ⟨_, e⟩ := State.resolveGrant_frame s
  rw [e]

theorem State.resolveGrant_replay_ne_startup {s : State} (h : s.replay ≠ .startup) :
    s.resolveGrant.replay ≠ .startup := by
  unfold State.resolveGrant
  split
  · exact nofun
  · obtain ⟨_, e⟩ := serveJobs_frame s s.burnQueue
    rw [e]
    exact h

theorem State.arbitrate_replay_ne_startup {s : State} (h : s.replay ≠ .startup) :
    s.arbitrate.replay ≠ .startup := by
  unfold State.arbitrate
  split
  · exact State.resolveGrant_replay_ne_startup h
  · split
    · exact State.resolveGrant_replay_ne_startup h
    · exact h
  · exact h

theorem State.serve_replay_ne_startup {s : State} (p : Port) (q : Request) (h : s.replay ≠ .startup) :
    (s.serve p q).1.replay ≠ .startup := by
  have hended : (s.endSession p).replay ≠ .startup := by
    obtain ⟨_, e⟩ := State.endSession_frame s p
    rw [e]
    exact h
  generalize ht : (s.serve p q).1 = u
  have he : ServeEffect s p u := ht ▸ serve_effect s p q
  clear ht
  cases he
  case opened => exact hended
  case closed => exact hended
  case committed => exact State.arbitrate_replay_ne_startup h
  case revoking => exact State.arbitrate_replay_ne_startup h
  case rebuilding => exact State.arbitrate_replay_ne_startup nofun
  all_goals exact h

theorem State.serve_resetAsserted (s : State) (p : Port) (q : Request) :
    (s.serve p q).1.resetAsserted = s.resetAsserted := by
  obtain ⟨_, e⟩ := State.serve_frame s p q
  rw [e]

/-! ### A blank part -/

theorem State.blank.overlays {s : State} (h : s.blank) : s.overlays = [] := h.1

theorem State.blank.active {s : State} (h : s.blank) : s.active = none := by
  obtain ⟨_, _, hactive, _⟩ := h
  exact hactive

theorem State.blank.isOpen {s : State} (h : s.blank) (p : Port) : (s.session.get p).isOpen = false := by
  obtain ⟨_, _, _, _, _, _, _, _, _, _, _, hports⟩ := h
  obtain ⟨hsession, _⟩ := hports p
  rw [hsession]
  rfl

theorem State.blank.notWaiting {s : State} (h : s.blank) {p : Port} (hx : (s.handler.get p).state = .executing) :
    (s.handler.get p).service ≠ .waiting := by
  obtain ⟨_, _, _, _, _, _, _, _, _, _, _, hports⟩ := h
  obtain ⟨_, _, hservice⟩ := hports p
  exact hservice hx

/-- A handler that does not come to wait. -/
theorem State.blank.setHandler {s : State} {p : Port} {x : Handler} (h : s.blank)
    (hx : x.state = .executing → x.service ≠ .waiting) : (s.setHandler p x).blank := by
  obtain ⟨ho, hq, ha, hw, hr, hi, hu, hb, ht, hj, he, hports⟩ := h
  refine ⟨ho, hq, ha, hw, hr, hi, hu, hb, ht, hj, he, fun q => ?_⟩
  obtain ⟨hsession, hstaging, hservice⟩ := hports q
  refine ⟨hsession, hstaging, ?_⟩
  rw [State.setHandler_handler, PerPort.get_set]
  split
  · exact hx
  · exact hservice

theorem State.blank.setOverlays {s : State} {os : List OverlayRecord} (h : s.blank) (hos : os = []) :
    ({ s with overlays := os } : State).blank := by
  obtain ⟨_, h⟩ := h
  exact ⟨hos, h⟩

/-- A free array with no claim stays free. -/
theorem State.blank.arbitrate {s : State} (h : s.blank) (hreplay : s.replay ≠ .pending) : s.arbitrate.blank := by
  have hresolved : s.resolveGrant.blank := by
    have hqueue : s.burnQueue = [] := by
      obtain ⟨_, hqueue, _⟩ := h
      exact hqueue
    rw [State.resolveGrant, if_neg hreplay, hqueue]
    exact h
  unfold State.arbitrate
  split
  · exact hresolved
  · split
    · exact hresolved
    · exact h
  · exact h

theorem State.blank.expireOverlays {s : State} (h : s.blank) : s.expireOverlays.blank := by
  have hnone : s.expireOverlays = { s with overlays := [] } := by
    unfold State.expireOverlays State.removeOverlays removalReports
    rw [h.overlays]
    rfl
  rw [hnone]
  exact h.setOverlays rfl

theorem State.assertReset_blank (s : State) : s.assertReset.blank :=
  ⟨rfl, rfl, rfl, rfl, rfl, rfl, rfl, rfl, rfl, rfl, rfl, fun p => by cases p <;> exact ⟨rfl, rfl, nofun⟩⟩

/-! ### The law -/

/-- In STARTUP a delivered record is answered at once (R147). -/
theorem commonRefusal_isSome_of_startup {s : State} (h : s.replay = .startup) (p : Port) (r : Record) :
    ∃ status, commonRefusal s p r = some status := by
  unfold commonRefusal
  split <;> exact ⟨_, rfl⟩

theorem startupLaw_walk : Walk State.startupLaw where
  cell _ _ h := h
  burnEn _ _ h := h
  queue _ _ h := h
  settle s h := by
    obtain ⟨_, e⟩ := State.settle_frame s
    rw [e]
    exact h
  window _ _ _ _ h := h
  link _ _ _ h := h
  handler s p x hx h := h.of_same rfl rfl fun hblank => hblank.setHandler fun hexecuting =>
    (hx hexecuting).elim id fun ⟨hold, hwaiting⟩ => (hblank.notWaiting hold hwaiting).elim
  deliver s p r hr h := by
    refine fun hstart => (h hstart).setHandler fun _ => ?_
    have hreplay : s.replay = .startup := hstart.resolve_left fun hreset => nomatch hr.symm.trans hreset
    obtain ⟨status, hstatus⟩ := commonRefusal_isSome_of_startup hreplay p r
    rw [hstatus]
    exact nofun
  serve s p q hr hx hw h := by
    refine .of_awake ((s.serve_resetAsserted p q).trans hr) (State.serve_replay_ne_startup p q fun hreplay => ?_)
    exact (h (.inr hreplay)).notWaiting hx hw
  endSession s p _ h := by
    refine h.of_same ?_ ?_ fun hblank => (State.endSession_of_closed (hblank.isOpen p)).symm ▸ hblank
    all_goals
      obtain ⟨_, e⟩ := State.endSession_frame s p
      rw [e]
  acknowledge s hopen h := h.of_same rfl rfl fun hblank => nomatch hopen.symm.trans (hblank.isOpen .port2)
  markSent s hopen h := h.of_same rfl rfl fun hblank => nomatch hopen.symm.trans (hblank.isOpen .port2)
  count s h := h.of_same rfl rfl fun hblank =>
    hblank.setOverlays (show s.overlays.map OverlayRecord.tick = [] by rw [hblank.overlays, List.map_nil])
  expiry s h := h.of_same rfl rfl State.blank.expireOverlays
  pulse s taken pause hr h := by
    by_cases hreplay : s.replay = .startup
    · have hblank := h (.inr hreplay)
      have hidle : s.burnPulse taken pause = s := by
        rw [State.burnPulse, hblank.active]
      rw [hidle]
      exact fun _ => hblank.arbitrate (by rw [hreplay]; exact nofun)
    · obtain ⟨_, e⟩ := State.burnPulse_frame s taken pause
      refine .of_awake ((State.arbitrate_resetAsserted _).trans ?_) (State.arbitrate_replay_ne_startup ?_)
      · rw [e]
        exact hr
      · rw [e]
        exact hreplay
  verify s a pause hr ha h := by
    obtain ⟨_, e⟩ := State.stepVerify_frame s a pause
    refine .of_awake ((State.arbitrate_resetAsserted _).trans ?_) (State.arbitrate_replay_ne_startup ?_)
    · rw [e]
      exact hr
    · rw [e]
      exact fun hreplay => nomatch ha.symm.trans (h (.inr hreplay)).active
  startup s hr _ _ :=
    .of_awake ((State.resolveGrant_resetAsserted _).trans hr) (State.resolveGrant_replay_ne_startup nofun)
  rebuild s hr hreplay h := by
    have hidle : s.installRebuild.replay = .idle := by
      rw [State.installRebuild, State.postRebuild_eq]
      rfl
    obtain ⟨_, e⟩ := State.installRebuild_frame s
    refine .of_awake ((State.resolveGrant_resetAsserted _).trans ?_) (State.resolveGrant_replay_ne_startup ?_)
    · rw [e]
      exact hr
    · rw [hidle]
      exact nofun
  reset s _ := fun _ => s.assertReset_blank
  release s strap0 strap1 hr h := by
    obtain ⟨ho, hq, ha, hw, _, hrest⟩ := h (.inl hr)
    exact fun _ => ⟨ho, hq, ha, hw, rfl, hrest⟩

/-- Settles O9: a blank part's sessions are CLOSED, its handlers answer at once and its writer has no job, so no
operation but the two installs can put anything into it; and those leave STARTUP. -/
theorem startupLawKept : Obligations.StartupLawKept := fun _ _ h hstep => startupLaw_walk.step hstep h

end Sys2Proof.Machine
end

section
/-! PROOF. The laws of the Overlay Table and of pins (R16, R107). -/

namespace Sys2Proof.Machine

/-! ### Sessions that stay -/

/-- A session that is open or closed as before, with its generation: its bound overlays are still its own (R107). -/
structure Session.Stays (u v : Session) : Prop where
  isOpen : v.isOpen = u.isOpen
  generation : v.generation = u.generation

theorem Session.Stays.refl (u : Session) : u.Stays u := ⟨rfl, rfl⟩

theorem Session.Stays.trans {u v w : Session} (h : u.Stays v) (h' : v.Stays w) : u.Stays w :=
  ⟨h'.isOpen.trans h.isOpen, h'.generation.trans h.generation⟩

theorem Session.Continues.stays {u v : Session} (h : u.Continues v) : u.Stays v := ⟨h.isOpen, h.generation⟩

theorem Session.Stays.arrive (u : Session) (body : NoticeBody) : u.Stays (u.arrive body) :=
  ⟨u.arrive_isOpen body, u.arrive_generation body⟩

theorem PerPort.stays_set {x : PerPort Session} {p : Port} {v : Session} (h : (x.get p).Stays v) (q : Port) :
    (x.get q).Stays ((x.set p v).get q) := PerPort.forall_get_set_rel .refl h q

theorem State.sendReports_stays (s : State) (reports : List Report) (p : Port) :
    (s.session.get p).Stays ((s.sendReports reports).session.get p) := by
  rw [State.sendReports, PerPort.get_map]
  exact (Session.Continues.takeReports _ _).stays

theorem State.postRebuild_stays (s : State) (requester : Option Requester) (counts : ReplayCounts) (p : Port) :
    (s.session.get p).Stays ((s.postRebuild requester counts).session.get p) := by
  rw [State.postRebuild_session]
  cases requester with
  | none => exact .refl _
  | some q =>
    show (s.session.get p).Stays ((s.session.map _).get p)
    rw [PerPort.get_map]
    have htold : (s.session.get p).Stays
        (if (s.session.get p).isOpen = true ∧ (s.session.get p).watches ≠ [] then
          (s.session.get p).arrive (.rebuilt q.port) else s.session.get p) := by
      split
      · exact .arrive _ _
      · exact .refl _
    split
    · exact htold.trans (.arrive _ _)
    · exact htold

/-! ### Pins -/

/-- The table's record of the key is pinned (R16). -/
def pinnedIn (table : List KeyRecord) (key : Nat) : Prop := ∃ r, table.find? (·.key = key) = some r ∧ r.pinned = true

theorem State.isPinned_iff (s : State) (key : Nat) : s.isPinned key = true ↔ pinnedIn s.table key := by
  unfold State.isPinned State.keyRecord? pinnedIn
  cases s.table.find? _ <;> simp

theorem State.isPinned_eq_false_iff (s : State) (key : Nat) : s.isPinned key = false ↔ ¬pinnedIn s.table key := by
  rw [← State.isPinned_iff, Bool.not_eq_true]

theorem KeyRecord.applyAction_pinned (r : KeyRecord) (d : Descriptor) (seq : Nat) (a : Action) :
    (r.applyAction d seq a).pinned = (a.pin || r.pinned) := by
  have hvalued : ∀ mode value, (r.setJournalValue mode value).pinned = r.pinned := fun mode value => by
    cases mode <;> rfl
  unfold KeyRecord.applyAction
  cases a.pin with
  | true => rfl
  | false => cases a.op <;> simp [hvalued]

/-- One action pins its own key alone, and that with its pin flag. -/
theorem pinnedIn_applyToTable {seq : Nat} {table : List KeyRecord} {a : Action} {key : Nat}
    (h : pinnedIn (applyToTable seq table a) key) : pinnedIn table key ∨ a.pin = true ∧ a.key = key := by
  unfold applyToTable at h
  split at h
  · exact .inl h
  next d _ =>
    obtain ⟨r', hfind, hpinned⟩ := h
    have hkey : ∀ r : KeyRecord, (if r.key = a.key then r.applyAction d seq a else r).key = r.key := fun r => by
      split
      · exact r.applyAction_key d seq a
      · rfl
    rw [List.find?_map, Function.comp_def] at hfind
    simp only [hkey, Option.map_eq_some_iff] at hfind
    obtain ⟨r, hfind, rfl⟩ := hfind
    split at hpinned
    next hown =>
      rw [KeyRecord.applyAction_pinned, Bool.or_eq_true] at hpinned
      have hr : r.key = key := by simpa using List.find?_some hfind
      exact hpinned.elim (fun hpin => .inr ⟨hpin, hown.symm.trans hr⟩) fun hold => .inl ⟨r, hfind, hold⟩
    next => exact .inl ⟨r, hfind, hpinned⟩

theorem pinnedIn_foldl_applyToTable {seq : Nat} (actions : List Action) {table : List KeyRecord} {key : Nat}
    (h : pinnedIn (actions.foldl (applyToTable seq) table) key) :
    pinnedIn table key ∨ pinsKey actions key = true := by
  induction actions generalizing table with
  | nil => exact .inl h
  | cons a rest ih =>
    have hcons : pinsKey (a :: rest) key = ((a.pin && a.key = key) || pinsKey rest key) := rfl
    rw [hcons, Bool.or_eq_true, Bool.and_eq_true, decide_eq_true_eq]
    obtain hone | hrest := ih h
    · exact (pinnedIn_applyToTable hone).imp id .inl
    · exact .inr (.inr hrest)

theorem any_of_pinnedIn {table : List KeyRecord} {key : Nat} (h : pinnedIn table key) :
    (table.any fun r => r.key = key && r.pinned) = true := by
  obtain ⟨r, hfind, hpinned⟩ := h
  have hr : r.key = key := by simpa using List.find?_some hfind
  exact List.any_eq_true.mpr ⟨r, List.mem_of_find?_eq_some hfind, by simp [hr, hpinned]⟩

/-! ### The law through the shared operations -/

/-- Some overlays leave; of those left the bound ones keep their session, and none gets pinned. -/
theorem State.overlayLaw.of_sublist {s t : State} (h : s.overlayLaw) (hsub : t.overlays.Sublist s.overlays)
    (hsession : ∀ o ∈ t.overlays, o.bound = true → (s.session.get o.ownerPort).Stays (t.session.get o.ownerPort))
    (hpin : ∀ o ∈ t.overlays, pinnedIn t.table o.key → pinnedIn s.table o.key) : t.overlayLaw := by
  obtain ⟨hlength, hrising, hbound, hpinned⟩ := h
  refine ⟨hsub.length_le.trans hlength, hrising.sublist (hsub.map _), fun o ho hb => ?_, fun o ho => ?_⟩
  · rw [(hsession o ho hb).isOpen, (hsession o ho hb).generation]
    exact hbound o (hsub.subset ho) hb
  · rw [State.isPinned_eq_false_iff]
    exact fun hp => (State.isPinned_eq_false_iff s o.key).mp (hpinned o (hsub.subset ho)) (hpin o ho hp)

/-- The overlays and the table as they were, and the sessions staying. -/
theorem State.overlayLaw.of_stays {s t : State} (h : s.overlayLaw) (hoverlays : t.overlays = s.overlays)
    (htable : t.table = s.table) (hsession : ∀ p, (s.session.get p).Stays (t.session.get p)) : t.overlayLaw :=
  h.of_sublist (hoverlays ▸ .refl _) (fun _ _ _ => hsession _) fun _ _ => by rw [htable]; exact id

theorem State.overlayLaw.sendReports {s : State} (h : s.overlayLaw) (reports : List Report) :
    (s.sendReports reports).overlayLaw := h.of_stays rfl rfl (s.sendReports_stays reports)

theorem State.overlayLaw.removeOverlays {s : State} (h : s.overlayLaw) (gone : OverlayRecord → Bool) (cause : Cause)
    (port : OverlayRecord → Port) : (s.removeOverlays gone cause port).overlayLaw :=
  State.overlayLaw.sendReports
    (h.of_sublist (t := { s with overlays := s.overlays.filter fun o => !gone o }) List.filter_sublist
      (fun _ _ _ => .refl _) fun _ _ => id) _

/-- A session end takes the port's bound overlays along (R115). -/
theorem State.overlayLaw.endSession {s : State} (h : s.overlayLaw) (p : Port) :
    (s.endSession p).overlayLaw ∧
      ∀ o ∈ (s.endSession p).overlays, o.bound = true → o.ownerPort ≠ p := by
  cases hopen : (s.session.get p).isOpen with
  | false =>
    rw [State.endSession_of_closed hopen]
    obtain ⟨-, -, hbound, -⟩ := id h
    refine ⟨h, fun o ho hb howner => ?_⟩
    have hown := (hbound o ho hb).1
    rw [howner, hopen] at hown
    cases hown
  | true =>
    rw [State.endSession_of_open hopen]
    have hleft : ∀ o ∈ (s.sessionEnded p).overlays, o.bound = true → o.ownerPort ≠ p := fun o ho hb => by
      have ⟨_, hkept⟩ := List.mem_filter.mp ho
      simpa [hb] using hkept
    refine ⟨State.overlayLaw.sendReports
      (h.of_sublist (t := s.sessionEnded p) List.filter_sublist (fun o ho hb => ?_) fun _ _ => id) _, hleft⟩
    rw [State.sessionEnded, PerPort.get_set_of_ne _ _ (hleft o ho hb)]
    exact .refl _

/-- On a port without bound overlays a session may begin. -/
theorem State.overlayLaw.openSession {s : State} (h : s.overlayLaw) (p : Port) : (s.openSession p).overlayLaw := by
  obtain ⟨hended, hleft⟩ := h.endSession p
  refine hended.of_sublist (.refl _) (fun o ho hb => ?_) fun _ _ => id
  rw [State.openSession, State.setSession_session, PerPort.get_set_of_ne _ _ (hleft o ho hb)]
  exact .refl _

/-- A record laid takes the place of the one on its key, else one more place. -/
theorem length_insertOverlay (o : OverlayRecord) {overlays : List OverlayRecord}
    (hrising : (overlays.map OverlayRecord.key).Pairwise (· < ·)) :
    (insertOverlay o overlays).length =
      if ∃ x ∈ overlays, x.key = o.key then overlays.length else overlays.length + 1 := by
  induction overlays with
  | nil => simp [insertOverlay]
  | cons x rest ih =>
    rw [List.map_cons, List.pairwise_cons, List.forall_mem_map] at hrising
    obtain ⟨hfirst, hrest⟩ := hrising
    rcases lt_trichotomy x.key o.key with hlt | heq | hgt
    · rw [insertOverlay_of_lt rest hlt, List.length_cons, ih hrest, List.length_cons]
      simp only [List.exists_mem_cons_iff, hlt.ne, false_or]
      split <;> rfl
    · rw [insertOverlay_of_eq rest heq, if_pos ⟨x, List.mem_cons_self, heq⟩]
      rfl
    · have hnone : ¬∃ y ∈ x :: rest, y.key = o.key := by
        rintro ⟨y, hy, hkey⟩
        obtain rfl | hmem := List.mem_cons.mp hy
        · exact hgt.ne' hkey
        · exact (hgt.trans (hfirst y hmem)).ne' hkey
      rw [insertOverlay_of_gt rest hgt, if_neg hnone, List.length_cons]

theorem overlayRoom_of_refusal_none {s : State} {p : Port} {key : Nat} (h : overlayRoomRefusal s p key = none) :
    (∃ o ∈ s.overlays, o.key = key) ∨ s.overlays.length < Config.maxOverlays := by
  unfold overlayRoomRefusal at h
  split at h
  next o ho => exact .inl ⟨o, List.mem_of_find?_eq_some ho, by simpa using List.find?_some ho⟩
  next =>
    split at h
    next hroom => exact .inr hroom
    next => cases h

/-- An accepted OVERLAY_SET: room for the record, an open session as its owner, and no pin on its key. -/
theorem State.overlayLaw.setOverlay {s : State} (h : s.overlayLaw) {p : Port} {key : Nat} (value : Bytes)
    (lifetime : Nat) (bound : Bool) (hopen : (s.session.get p).isOpen = true) (hfree : s.isPinned key = false)
    (hroom : overlayRoomRefusal s p key = none) : (s.setOverlay p key value lifetime bound).overlayLaw := by
  obtain ⟨hlength, hrising, hbound, hpinned⟩ := h
  refine State.overlayLaw.sendReports (s := { s with overlays := insertOverlay _ s.overlays }) ?_ _
  refine ⟨(length_insertOverlay _ hrising).trans_le ?_, insertOverlay_rising _ hrising, fun x hx hb => ?_, fun x hx => ?_⟩
  · by_cases hold : ∃ x ∈ s.overlays, x.key = key
    · exact (if_pos hold).trans_le hlength
    · exact (if_neg hold).trans_le ((overlayRoom_of_refusal_none hroom).resolve_left hold)
  · obtain rfl | ⟨hold, -⟩ := (mem_insertOverlay hrising).mp hx
    · exact ⟨hopen, rfl⟩
    · exact hbound x hold hb
  · obtain rfl | ⟨hold, -⟩ := (mem_insertOverlay hrising).mp hx
    · exact hfree
    · exact hpinned x hold

theorem overlayLaw_writerKept : WriterKept State.overlayLaw fun s _ => s.overlayLaw where
  figures _ _ _ _ _ _ _ _ _ _ h := h
  held _ _ h _ := h
  take _ _ _ h _ := h
  burning _ _ h := h
  hold _ _ _ _ h _ _ := h
  apply _ _ _ actions h := h.of_sublist List.filter_sublist (fun _ _ _ => .refl _) fun o ho hp => by
    have ⟨_, hkept⟩ := List.mem_filter.mp ho
    exact (pinnedIn_foldl_applyToTable actions hp).resolve_right (by simpa using hkept)
  reports _ _ reports h := h.sendReports reports
  endCommit s j result seq failIndex h := by
    rw [State.endCommit_eq]
    refine h.of_stays rfl rfl (PerPort.stays_set ?_)
    cases j.notice with
    | false => exact ⟨rfl, rfl⟩
    | true => exact (Session.Stays.arrive _ (.commitDone result seq)).trans ⟨rfl, rfl⟩
  endRevoke s j result target h := by
    rw [State.endRevoke_eq]
    refine h.of_stays rfl rfl ?_
    cases j.notice with
    | false => exact fun _ => .refl _
    | true =>
      exact PerPort.stays_set (Session.Stays.trans
        (v := { s.session.get j.port with lastRevoke := result, lastRevokeSeq := some target }) ⟨rfl, rfl⟩
        (.arrive _ _))
  free _ h _ := h
  rebuild _ h := h
  same _ _ h := h

theorem State.overlayLaw.setSession {s : State} (h : s.overlayLaw) {p : Port} {u : Session}
    (hu : (s.session.get p).Stays u) : (s.setSession p u).overlayLaw :=
  h.of_stays rfl rfl (PerPort.stays_set hu)

theorem State.overlayLaw_serve {s : State} (p : Port) (q : Request) (h : s.overlayLaw) : (s.serve p q).1.overlayLaw := by
  generalize ht : (s.serve p q).1 = t
  have he : ServeEffect s p t := ht ▸ serve_effect s p q
  clear ht
  cases he with
  | opened => exact h.openSession p
  | closed => exact (h.endSession p).1
  | watching => exact h.setSession ⟨rfl, rfl⟩
  | noticeRead => exact h.setSession ⟨rfl, rfl⟩
  | aborted => exact h.setSession (u := { s.session.get p with lastCommit := _ }) ⟨rfl, rfl⟩
  | overlaid d value lifetime bound hopen _ _ _ hfree hroom => exact h.setOverlay value lifetime bound hopen hfree hroom
  | uncovered => exact h.removeOverlays _ _ _
  | committed => exact overlayLaw_writerKept.arbitrate h
  | revoking => exact overlayLaw_writerKept.arbitrate h
  | rebuilding => exact overlayLaw_writerKept.arbitrate h
  | unchanged => exact h
  | staged => exact h
  | dropped => exact h
  | cleared => exact h
  | counters => exact h

/-- A tick changes counts and marks alone (R113). -/
theorem State.overlayLaw.countTick {s : State} (h : s.overlayLaw) : s.countTick.overlayLaw := by
  have htick : ∀ o : OverlayRecord, o.tick.key = o.key ∧ o.tick.bound = o.bound ∧ o.tick.ownerPort = o.ownerPort ∧
      o.tick.ownerGeneration = o.ownerGeneration := fun o => by
    unfold OverlayRecord.tick
    split
    · exact ⟨rfl, rfl, rfl, rfl⟩
    · split <;> exact ⟨rfl, rfl, rfl, rfl⟩
  obtain ⟨hlength, hrising, hbound, hpinned⟩ := h
  have hkeys : s.countTick.overlays.map OverlayRecord.key = s.overlays.map OverlayRecord.key := by
    show (s.overlays.map OverlayRecord.tick).map OverlayRecord.key = _
    rw [List.map_map]
    exact List.map_congr_left fun o _ => (htick o).1
  refine ⟨?_, hkeys ▸ hrising, fun x hx hb => ?_, fun x hx => ?_⟩
  · exact (List.length_map (as := s.overlays) OverlayRecord.tick).symm ▸ hlength
  · obtain ⟨o, ho, rfl⟩ := List.mem_map.mp hx
    obtain ⟨-, hbound', howner, hgeneration⟩ := htick o
    rw [howner, hgeneration]
    exact hbound o ho (hbound'.symm.trans hb)
  · obtain ⟨o, ho, rfl⟩ := List.mem_map.mp hx
    rw [(htick o).1]
    exact hpinned o ho

/-- The rebuild install removes the overlays on the keys that it leaves pinned (R91). -/
theorem State.overlayLaw.installRebuild {s : State} (h : s.overlayLaw) : s.installRebuild.overlayLaw := by
  have hposted : ∀ {u : State} (requester : Option Requester) (counts : ReplayCounts), u.overlayLaw →
      (u.postRebuild requester counts).overlayLaw := fun {u} requester counts hu => by
    refine hu.of_stays ?_ ?_ (u.postRebuild_stays requester counts)
    all_goals rw [State.postRebuild_eq]
  refine hposted _ _ (h.of_sublist List.filter_sublist (fun _ _ _ => .refl _) fun o ho hp => ?_)
  have ⟨_, hkept⟩ := List.mem_filter.mp ho
  rw [any_of_pinnedIn hp] at hkept
  cases hkept

theorem State.overlayLaw.of_empty {s : State} (h : s.overlays = []) : s.overlayLaw := by
  unfold State.overlayLaw State.boundLaw
  rw [h]
  exact ⟨Nat.zero_le _, List.Pairwise.nil, fun _ ho => (List.not_mem_nil ho).elim, fun _ ho => (List.not_mem_nil ho).elim⟩

/-! ### Every step -/

/-- The start-up install changes pins, and finds no overlay: the start-up law goes along. -/
theorem overlayLaw_walk : Walk fun s => s.overlayLaw ∧ s.startupLaw where
  cell s array h := ⟨h.1, startupLaw_walk.cell s array h.2⟩
  burnEn s level h := ⟨h.1, startupLaw_walk.burnEn s level h.2⟩
  queue s rest h := ⟨h.1, startupLaw_walk.queue s rest h.2⟩
  settle s h := by
    refine ⟨?_, startupLaw_walk.settle s h.2⟩
    obtain ⟨_, e⟩ := State.settle_frame s
    rw [e]
    exact h.1
  window s w x hx h := ⟨h.1, startupLaw_walk.window s w x hx h.2⟩
  link s l hl h := ⟨h.1, startupLaw_walk.link s l hl h.2⟩
  handler s p x hx h := ⟨h.1, startupLaw_walk.handler s p x hx h.2⟩
  deliver s p r hr h := ⟨h.1, startupLaw_walk.deliver s p r hr h.2⟩
  serve s p q hr hx hw h := ⟨State.overlayLaw_serve p q h.1, startupLaw_walk.serve s p q hr hx hw h.2⟩
  endSession s p hr h := ⟨(h.1.endSession p).1, startupLaw_walk.endSession s p hr h.2⟩
  acknowledge s hopen h :=
    ⟨h.1.setSession (Session.Continues.acknowledge _).stays, startupLaw_walk.acknowledge s hopen h.2⟩
  markSent s hopen h := ⟨h.1.setSession ⟨rfl, rfl⟩, startupLaw_walk.markSent s hopen h.2⟩
  count s h := ⟨h.1.countTick, startupLaw_walk.count s h.2⟩
  expiry s h := ⟨h.1.removeOverlays _ _ _, startupLaw_walk.expiry s h.2⟩
  pulse s taken pause hr h :=
    ⟨overlayLaw_writerKept.arbitrate (overlayLaw_writerKept.burnPulse h.1 taken pause),
      startupLaw_walk.pulse s taken pause hr h.2⟩
  verify s a pause hr ha h :=
    ⟨overlayLaw_writerKept.arbitrate (overlayLaw_writerKept.stepVerify h.1 pause),
      startupLaw_walk.verify s a pause hr ha h.2⟩
  startup s hr hreplay h :=
    ⟨overlayLaw_writerKept.resolveGrant (.of_empty (h.2 (.inr hreplay)).overlays),
      startupLaw_walk.startup s hr hreplay h.2⟩
  rebuild s hr hreplay h :=
    ⟨overlayLaw_writerKept.resolveGrant h.1.installRebuild, startupLaw_walk.rebuild s hr hreplay h.2⟩
  reset s h := ⟨.of_empty rfl, startupLaw_walk.reset s h.2⟩
  release s strap0 strap1 hr h := ⟨h.1, startupLaw_walk.release s strap0 strap1 hr h.2⟩

/-- Settles O10: each operation keeps the laws, the start-up install because no overlay stands at it; the table law is
not needed. -/
theorem overlayLawKept : Obligations.OverlayLawKept :=
  fun _ _ h _ hstartup hstep => (overlayLaw_walk.step hstep ⟨h, hstartup⟩).1

end Sys2Proof.Machine
end

section
/-! PROOF. The CRC-32 (R36): its shift loses nothing, so that one different byte makes a different code. -/

namespace Sys2Proof.Machine

/-- The bit that a shift drops stands in the top bit of the register, which the polynomial sets. -/
theorem crcShift_top (r : Word32) : (crcShift r).getLsbD 31 = r.getLsbD 0 := by
  unfold crcShift
  split
  next h =>
    rw [h, BitVec.getLsbD_xor, BitVec.getLsbD_ushiftRight, BitVec.getLsbD_of_ge r (1 + 31) (by decide)]
    decide
  next h =>
    rw [Bool.not_eq_true] at h
    rw [h, BitVec.getLsbD_ushiftRight, BitVec.getLsbD_of_ge r (1 + 31) (by decide)]

/-- A register is told by its lowest bit and the bits above it. -/
theorem eq_of_shift_eq {a b : Word32} (hlow : a.getLsbD 0 = b.getLsbD 0) (hhigh : a >>> 1 = b >>> 1) : a = b := by
  refine BitVec.eq_of_getLsbD_eq fun i _ => ?_
  cases i with
  | zero => exact hlow
  | succ i =>
    have hbit := congrArg (BitVec.getLsbD · i) hhigh
    simpa only [BitVec.getLsbD_ushiftRight, Nat.add_comm 1 i] using hbit

theorem crcShift_injective : Function.Injective crcShift := fun a b h => by
  have hlow : a.getLsbD 0 = b.getLsbD 0 := by rw [← crcShift_top, ← crcShift_top, h]
  refine eq_of_shift_eq hlow ?_
  unfold crcShift at h
  rw [hlow] at h
  split at h
  · exact (BitVec.xor_left_inj _).mp h
  · exact h

theorem crcByte_injective (b : Byte) : Function.Injective fun register => crcByte register b := fun _ _ h =>
  (BitVec.xor_left_inj _).mp (crcShift_injective.iterate 8 h)

theorem crcByte_injective_byte (register : Word32) : Function.Injective (crcByte register) := fun x y h => by
  have hwide : x.zeroExtend 32 = y.zeroExtend 32 := (BitVec.xor_right_inj _).mp (crcShift_injective.iterate 8 h)
  have hnat := congrArg BitVec.toNat hwide
  rw [BitVec.toNat_setWidth_of_le (by decide), BitVec.toNat_setWidth_of_le (by decide)] at hnat
  exact BitVec.eq_of_toNat_eq hnat

/-- Registers that differ stay different over the same bytes. -/
theorem foldl_crcByte_injective (bytes : Bytes) : Function.Injective fun register => bytes.foldl crcByte register := by
  induction bytes with
  | nil => exact fun _ _ h => h
  | cons b rest ih => exact fun _ _ h => crcByte_injective b (ih h)

theorem crc32_workedValues :
    crc32 [0x01, 0x02, 0x00, 0x05, 0x00] = 0x2C3CE263#32 ∧
    crc32 [0x31, 0x32, 0x33, 0x34, 0x35, 0x36, 0x37, 0x38, 0x39] = 0xCBF43926#32 ∧
    crc32 [] = 0x00000000#32 ∧ crc32 [0x00] = 0xD202EF8D#32 := by
  refine ⟨?_, ?_, ?_, ?_⟩
  all_goals simp [crc32, crcByte, crcShift]

/-- Settles O18: the worked values by evaluation; one different byte makes the registers differ there, and so at the
end. -/
theorem crcTellsBytes : Obligations.CrcTellsBytes := by
  refine ⟨crc32_workedValues, fun before after x y hne heq => hne ?_⟩
  have hregisters := BitVec.not_inj.mp heq
  rw [List.foldl_append, List.foldl_append] at hregisters
  exact crcByte_injective_byte _ (foldl_crcByte_injective after hregisters)

end Sys2Proof.Machine
end

section
/-! PROOF. Request records, written and read back, and what a record that reads must be (R141, R148, R180, R182). -/

namespace Sys2Proof.Machine

/-! ### Fields read -/

theorem bytesOfNat_four (n : Nat) :
    bytesOfNat 4 n =
      [BitVec.ofNat 8 (n / 0x1000000), BitVec.ofNat 8 (n / 0x10000), BitVec.ofNat 8 (n / 256), BitVec.ofNat 8 n] := by
  simp only [bytesOfNat, Nat.reducePow, pow_one, pow_zero, Nat.div_one]

/-- The word that two bytes carry. -/
theorem exists_word_of_bytes (high low : Byte) : ∃ w : Word16, number16 high low = w.toNat ∧ [high, low] = bytes16 w := by
  have hh := high.isLt
  have hl := low.isLt
  have hword : (BitVec.ofNat 16 (number16 high low)).toNat = number16 high low := by
    rw [BitVec.toNat_ofNat, number16]
    omega
  exact ⟨_, hword.symm, by rw [bytes16, hword, bytes_number16]⟩

theorem readFlag_some {b : Byte} {flag : Bool} (h : readFlag b = some flag) : b = flagByte flag := by
  unfold readFlag at h
  split at h
  next hb => exact Option.some.inj h ▸ hb
  next =>
    split at h
    next hb => exact Option.some.inj h ▸ hb
    next => cases h

/-- A guard that reads stands as its code, with its value field where it has one (R180, R182). -/
theorem readGuard_some {bytes : Bytes} {g : Guard} (h : readGuard bytes = some g) :
    ∃ guard : GuardArg, g = guardOf guard ∧ bytes = guardField guard ∧ g.length ≤ 255 := by
  unfold readGuard at h
  split at h
  next code =>
    split at h
    next hcode => exact ⟨.none, (Option.some.inj h).symm, by rw [hcode]; rfl, Option.some.inj h ▸ Nat.zero_le _⟩
    next =>
      split at h
      next hcode => exact ⟨.untouched, (Option.some.inj h).symm, by rw [hcode]; rfl, Option.some.inj h ▸ Nat.zero_le _⟩
      next => cases h
  next _ length value =>
    split at h
    next hfits =>
      obtain ⟨rfl, hlength⟩ := hfits
      obtain rfl := Option.some.inj h
      have hlt := length.isLt
      refine ⟨.equals value, rfl, ?_, ?_⟩
      · rw [guardField, valueField, hlength, byte_of_toNat]
      · show value.length ≤ 255
        omega
    next => cases h
  next => cases h

/-! ### Arguments read, shape by shape -/

theorem readNone_some {q q' : Request} {args : Bytes} (h : readNone q args = some q') : q' = q ∧ args = [] := by
  unfold readNone at h
  split at h
  · exact ⟨(Option.some.inj h).symm, rfl⟩
  · cases h

theorem readByteArg_some {f : Nat → Request} {q : Request} {args : Bytes} (h : readByteArg f args = some q) :
    ∃ b : Byte, q = f b.toNat ∧ args = [b] := by
  unfold readByteArg at h
  split at h
  · exact ⟨_, (Option.some.inj h).symm, rfl⟩
  · cases h

theorem readWordArg_some {f : Nat → Request} {q : Request} {args : Bytes} (h : readWordArg f args = some q) :
    ∃ w : Word16, q = f w.toNat ∧ args = bytes16 w := by
  unfold readWordArg at h
  split at h
  next high low =>
    obtain ⟨w, hw, hbytes⟩ := exists_word_of_bytes high low
    exact ⟨w, hw ▸ (Option.some.inj h).symm, hbytes⟩
  next => cases h

theorem readBounds_some {f : Nat → Nat → Request} {q : Request} {args : Bytes} (h : readBounds f args = some q) :
    ∃ first last : Word16, q = f first.toNat last.toNat ∧ args = bytes16 first ++ bytes16 last := by
  unfold readBounds at h
  split at h
  next firstHigh firstLow lastHigh lastLow =>
    obtain ⟨first, hfirst, hfirstBytes⟩ := exists_word_of_bytes firstHigh firstLow
    obtain ⟨last, hlast, hlastBytes⟩ := exists_word_of_bytes lastHigh lastLow
    refine ⟨first, last, ?_, by rw [← hfirstBytes, ← hlastBytes]; rfl⟩
    rw [← hfirst, ← hlast]
    exact (Option.some.inj h).symm
  next => cases h

theorem readJournalRead_some {q : Request} {args : Bytes} (h : readJournalRead args = some q) :
    ∃ (offset : Word16) (length : Byte), q = .journalRead offset.toNat length.toNat ∧ args = bytes16 offset ++ [length] := by
  unfold readJournalRead at h
  split at h
  next high low length =>
    obtain ⟨offset, hoffset, hbytes⟩ := exists_word_of_bytes high low
    refine ⟨offset, length, ?_, by rw [← hbytes]; rfl⟩
    rw [← hoffset]
    exact (Option.some.inj h).symm
  next => cases h

theorem readLinkStat_some {q : Request} {args : Bytes} (h : readLinkStat args = some q) :
    ∃ clear : Bool, q = .linkStat clear ∧ args = [flagByte clear] := by
  unfold readLinkStat at h
  split at h
  next b =>
    obtain ⟨clear, hflag, rfl⟩ := Option.map_eq_some_iff.mp h
    exact ⟨clear, rfl, by rw [readFlag_some hflag]⟩
  next => cases h

theorem readStageRetire_some {q : Request} {args : Bytes} (h : readStageRetire args = some q) :
    ∃ (key : Word16) (guard : GuardArg), q = .stageRetire key.toNat (guardOf guard) ∧
      args = bytes16 key ++ guardField guard ∧ (guardOf guard).length ≤ 255 := by
  unfold readStageRetire at h
  split at h
  next high low rest =>
    split at h
    next g hg =>
      obtain ⟨guard, rfl, rfl, hlength⟩ := readGuard_some hg
      obtain ⟨key, hkey, hbytes⟩ := exists_word_of_bytes high low
      refine ⟨key, guard, ?_, by rw [← hbytes]; rfl, hlength⟩
      rw [← hkey]
      exact (Option.some.inj h).symm
    next => cases h
  next => cases h

/-- A value taken by its length byte, with what follows it. -/
theorem valueField_take_append {length : Byte} {rest after : Bytes} (hfits : length.toNat ≤ rest.length)
    (hafter : rest.drop length.toNat = after) :
    (rest.take length.toNat).length ≤ 255 ∧ length :: rest = valueField (rest.take length.toNat) ++ after := by
  have hlt := length.isLt
  have htake : (rest.take length.toNat).length = length.toNat := List.length_take_of_le hfits
  refine ⟨by omega, ?_⟩
  rw [valueField, htake, byte_of_toNat, List.cons_append, ← hafter, List.take_append_drop]

theorem readStageAssign_some {q : Request} {args : Bytes} (h : readStageAssign args = some q) :
    ∃ (key : Word16) (value : Bytes) (guard : GuardArg), q = .stageAssign key.toNat value (guardOf guard) ∧
      args = bytes16 key ++ valueField value ++ guardField guard ∧
      value.length ≤ 255 ∧ (guardOf guard).length ≤ 255 ∧ value.length + (guardOf guard).length ≤ 51 := by
  unfold readStageAssign at h
  split at h
  next high low length rest =>
    split at h
    next => cases h
    next hfits =>
      split at h
      next => cases h
      next g hg =>
        split at h
        next hsum =>
          obtain ⟨guard, rfl, hguard, hlength⟩ := readGuard_some hg
          obtain ⟨key, hkey, hbytes⟩ := exists_word_of_bytes high low
          have htake : (rest.take length.toNat).length = length.toNat := List.length_take_of_le (by omega)
          obtain ⟨hvalue, hfield⟩ := valueField_take_append (by omega) hguard
          refine ⟨key, rest.take length.toNat, guard, ?_, ?_, hvalue, hlength, by rwa [htake]⟩
          · rw [← hkey]
            exact (Option.some.inj h).symm
          · rw [← hbytes, List.append_assoc, ← hfield]
            rfl
        next => cases h
  next => cases h

theorem readOverlaySet_some {q : Request} {args : Bytes} (h : readOverlaySet args = some q) :
    ∃ (key lifetime : Word16) (value : Bytes) (bound : Bool), q = .overlaySet key.toNat value lifetime.toNat bound ∧
      args = bytes16 key ++ valueField value ++ bytes16 lifetime ++ [flagByte bound] ∧ value.length ≤ 255 := by
  unfold readOverlaySet at h
  split at h
  next high low length rest =>
    split at h
    next => cases h
    next hfits =>
      split at h
      next lifeHigh lifeLow flag hafter =>
        split at h
        next bound hflag =>
          obtain ⟨key, hkey, hbytes⟩ := exists_word_of_bytes high low
          obtain ⟨lifetime, hlife, hlifeBytes⟩ := exists_word_of_bytes lifeHigh lifeLow
          obtain ⟨hvalue, hfield⟩ := valueField_take_append (by omega) hafter
          refine ⟨key, lifetime, rest.take length.toNat, bound, ?_, ?_, hvalue⟩
          · rw [← hkey, ← hlife]
            exact (Option.some.inj h).symm
          · rw [← hbytes, ← hlifeBytes, ← readFlag_some hflag, List.append_assoc, List.append_assoc]
            exact congrArg (fun x => high :: low :: x) hfield
        next => cases h
      next => cases h
  next => cases h

/-! ### The table of requests -/

/-- Every request with its kind code and its argument bytes, in the order of Table 8-1 (R182). -/
def requestRows (key second : Word16) (b : Byte) (flag : Bool) (value : Bytes) (guard : GuardArg) :
    List (Request × Byte × Bytes) :=
  [(.get key.toNat, 0x01, bytes16 key), (.getDetail key.toNat, 0x02, bytes16 key),
    (.catalogRead b.toNat, 0x03, [b]), (.openSession, 0x10, []), (.closeSession, 0x11, []),
    (.watch key.toNat second.toNat, 0x20, bytes16 key ++ bytes16 second),
    (.unwatch key.toNat second.toNat, 0x21, bytes16 key ++ bytes16 second),
    (.noticeRead, 0x22, []),
    (.stageAssign key.toNat value (guardOf guard), 0x30, bytes16 key ++ valueField value ++ guardField guard),
    (.stageRetire key.toNat (guardOf guard), 0x31, bytes16 key ++ guardField guard),
    (.stagePin key.toNat, 0x32, bytes16 key), (.stageDrop key.toNat, 0x33, bytes16 key),
    (.stageClear, 0x34, []), (.stageList b.toNat, 0x35, [b]), (.commit, 0x36, []), (.abort, 0x37, []),
    (.commitResult, 0x38, []),
    (.overlaySet key.toNat value second.toNat flag, 0x40,
      bytes16 key ++ valueField value ++ bytes16 second ++ [flagByte flag]),
    (.overlayClear key.toNat, 0x41, bytes16 key), (.overlayList b.toNat, 0x42, [b]),
    (.revoke key.toNat, 0x51, bytes16 key), (.rebuild, 0x52, []), (.journalStat, 0x53, []),
    (.journalRead key.toNat b.toNat, 0x54, bytes16 key ++ [b]),
    (.entryRead key.toNat, 0x55, bytes16 key), (.linkStat flag, 0x60, [flagByte flag])]

/-- A request, its kind code and its argument bytes stand in the table for some operands that fit it. -/
def StandsInRows (row : Request × Byte × Bytes) : Prop :=
  ∃ (key second : Word16) (b : Byte) (flag : Bool) (value : Bytes) (guard : GuardArg),
    value.length ≤ 255 ∧ (guardOf guard).length ≤ 255 ∧
    (row.2.1 = 0x30 → value.length + (guardOf guard).length ≤ 51) ∧
    row ∈ requestRows key second b flag value guard

/-- The rows without a value and without a guard. -/
theorem standsInRows_plain {row : Request × Byte × Bytes} (key second : Word16) (b : Byte) (flag : Bool) (i : Nat)
    (h : (requestRows key second b flag [] .none)[i]? = some row) : StandsInRows row :=
  ⟨key, second, b, flag, [], .none, Nat.zero_le _, Nat.zero_le _, fun _ => Nat.zero_le _, List.mem_of_getElem? h⟩

theorem standsInRows_word {f : Nat → Request} {q : Request} {code : Byte} {args : Bytes}
    (h : readWordArg f args = some q) (i : Nat)
    (hrow : ∀ w, (requestRows w 0 0 false [] .none)[i]? = some (f w.toNat, code, bytes16 w)) :
    StandsInRows (q, code, args) := by
  obtain ⟨w, rfl, rfl⟩ := readWordArg_some h
  exact standsInRows_plain w 0 0 false i (hrow w)

theorem standsInRows_byte {f : Nat → Request} {q : Request} {code : Byte} {args : Bytes}
    (h : readByteArg f args = some q) (i : Nat)
    (hrow : ∀ b, (requestRows 0 0 b false [] .none)[i]? = some (f b.toNat, code, [b])) :
    StandsInRows (q, code, args) := by
  obtain ⟨b, rfl, rfl⟩ := readByteArg_some h
  exact standsInRows_plain 0 0 b false i (hrow b)

theorem standsInRows_none {q q' : Request} {code : Byte} {args : Bytes} (h : readNone q args = some q') (i : Nat)
    (hrow : (requestRows 0 0 0 false [] .none)[i]? = some (q, code, [])) : StandsInRows (q', code, args) := by
  obtain ⟨rfl, rfl⟩ := readNone_some h
  exact standsInRows_plain 0 0 0 false i hrow

theorem standsInRows_bounds {f : Nat → Nat → Request} {q : Request} {code : Byte} {args : Bytes}
    (h : readBounds f args = some q) (i : Nat)
    (hrow : ∀ v w, (requestRows v w 0 false [] .none)[i]? = some (f v.toNat w.toNat, code, bytes16 v ++ bytes16 w)) :
    StandsInRows (q, code, args) := by
  obtain ⟨v, w, rfl, rfl⟩ := readBounds_some h
  exact standsInRows_plain v w 0 false i (hrow v w)

/-- Arguments that read for a kind are that kind's arguments, and its row says of which request. -/
theorem readArgs_standsInRows {kind : RequestKind} {args : Bytes} {q : Request} (h : readArgs kind args = some q) :
    StandsInRows (q, kind.code, args) := by
  cases kind with
  | get => exact standsInRows_word h 0 fun _ => rfl
  | getDetail => exact standsInRows_word h 1 fun _ => rfl
  | catalogRead => exact standsInRows_byte h 2 fun _ => rfl
  | openSession => exact standsInRows_none h 3 rfl
  | closeSession => exact standsInRows_none h 4 rfl
  | watch => exact standsInRows_bounds h 5 fun _ _ => rfl
  | unwatch => exact standsInRows_bounds h 6 fun _ _ => rfl
  | noticeRead => exact standsInRows_none h 7 rfl
  | stageAssign =>
    obtain ⟨key, value, guard, rfl, rfl, hvalue, hguard, hsum⟩ := readStageAssign_some h
    exact ⟨key, 0, 0, false, value, guard, hvalue, hguard, fun _ => hsum, List.mem_of_getElem? (i := 8) rfl⟩
  | stageRetire =>
    obtain ⟨key, guard, rfl, rfl, hguard⟩ := readStageRetire_some h
    exact ⟨key, 0, 0, false, [], guard, Nat.zero_le _, hguard, nofun,
      List.mem_of_getElem? (i := 9) rfl⟩
  | stagePin => exact standsInRows_word h 10 fun _ => rfl
  | stageDrop => exact standsInRows_word h 11 fun _ => rfl
  | stageClear => exact standsInRows_none h 12 rfl
  | stageList => exact standsInRows_byte h 13 fun _ => rfl
  | commit => exact standsInRows_none h 14 rfl
  | abort => exact standsInRows_none h 15 rfl
  | commitResult => exact standsInRows_none h 16 rfl
  | overlaySet =>
    obtain ⟨key, lifetime, value, bound, rfl, rfl, hvalue⟩ := readOverlaySet_some h
    exact ⟨key, lifetime, 0, bound, value, .none, hvalue, Nat.zero_le _, nofun,
      List.mem_of_getElem? (i := 17) rfl⟩
  | overlayClear => exact standsInRows_word h 18 fun _ => rfl
  | overlayList => exact standsInRows_byte h 19 fun _ => rfl
  | revoke => exact standsInRows_word h 20 fun _ => rfl
  | rebuild => exact standsInRows_none h 21 rfl
  | journalStat => exact standsInRows_none h 22 rfl
  | journalRead =>
    obtain ⟨offset, length, rfl, rfl⟩ := readJournalRead_some h
    exact standsInRows_plain offset 0 length false 23 rfl
  | entryRead => exact standsInRows_word h 24 fun _ => rfl
  | linkStat =>
    obtain ⟨clear, rfl, rfl⟩ := readLinkStat_some h
    exact standsInRows_plain 0 0 0 clear 25 rfl

/-- A record that reads as a request: its lengths agree, and its code names the kind whose arguments it holds. -/
theorem Record.request?_some {r : Record} {q : Request} (h : r.request? = some q) :
    r.argLength = r.args.length ∧ r.args.length ≤ 60 ∧
      ∃ kind : RequestKind, r.kind = kind.code ∧ readArgs kind r.args = some q := by
  unfold Record.request? at h
  split at h
  next hfits =>
    obtain ⟨hmax, hlength⟩ := hfits
    split at h
    next kind hkind =>
      have hcode : kind.code = r.kind := by simpa using List.find?_some hkind
      exact ⟨hlength.symm, hlength ▸ hmax, kind, hcode.symm, h⟩
    next => cases h
  next => cases h

/-! ### The records of the request commands -/

theorem byteRecord_request? (kind : RequestKind) (tag b : Byte) :
    (kind.record tag [b]).request? = readArgs kind [b] :=
  kind.record_request? tag [b] (by simp [Config.maxArgs])

theorem twoWordRecord_request? (kind : RequestKind) (tag : Byte) (v w : Word16) :
    (kind.record tag (bytes16 v ++ bytes16 w)).request? = readArgs kind (bytes16 v ++ bytes16 w) :=
  kind.record_request? tag _ (by simp [bytes16, bytesOfNat_two, Config.maxArgs])

theorem readBounds_bytes16 (f : Nat → Nat → Request) (v w : Word16) :
    readBounds f (bytes16 v ++ bytes16 w) = some (f v.toNat w.toNat) := by
  rw [bytes16, bytes16, bytesOfNat_two, bytesOfNat_two]
  show some (f (number16 _ _) (number16 _ _)) = _
  rw [number16_of_word, number16_of_word]

theorem journalRead_request? (tag : Byte) (offset : Word16) (length : Byte) :
    (RequestKind.journalRead.record tag (bytes16 offset ++ [length])).request? =
      some (.journalRead offset.toNat length.toNat) := by
  rw [RequestKind.record_request? _ _ _ (by simp [bytes16, bytesOfNat_two, Config.maxArgs]), bytes16, bytesOfNat_two]
  show some (Request.journalRead (number16 _ _) _) = _
  rw [number16_of_word]

theorem linkStat_request? (tag : Byte) (clear : Bool) :
    (RequestKind.linkStat.record tag [flagByte clear]).request? = some (.linkStat clear) := by
  rw [byteRecord_request?]
  cases clear <;> rfl

/-- The request of a kind whose one argument is a word. -/
theorem wordRecord_reads {kind : RequestKind} {f : Nat → Request} (tag : Byte) (w : Word16)
    (h : ∀ args, readArgs kind args = readWordArg f args) :
    (kind.record tag (bytes16 w)).request? = some (f w.toNat) := by
  rw [wordRecord_request?, h, readWordArg_bytes16]

/-- Settles O15: the fields by their equations, each record read back by its shape, and a record that reads by the row
of its kind. -/
theorem requestRecordsRead : Obligations.RequestRecordsRead := by
  refine ⟨⟨fun n => ⟨bytesOfNat_two n, bytesOfNat_four n⟩, fun _ => rfl, fun _ => ⟨rfl, rfl⟩, rfl, rfl, rfl, rfl,
    fun _ => rfl⟩, ?_, fun r q h => ?_⟩
  · intro tag key first last lifetime offset seq position index length clear bound value guard
    exact ⟨wordRecord_reads tag key fun _ => rfl, wordRecord_reads tag key fun _ => rfl, byteRecord_request? _ tag position,
      noArgsRecord_request? _ tag, noArgsRecord_request? _ tag,
      (twoWordRecord_request? _ tag first last).trans (readBounds_bytes16 _ first last),
      (twoWordRecord_request? _ tag first last).trans (readBounds_bytes16 _ first last),
      noArgsRecord_request? _ tag, stageAssign_request?, stageRetire_request?,
      wordRecord_reads tag key fun _ => rfl, wordRecord_reads tag key fun _ => rfl,
      noArgsRecord_request? _ tag, byteRecord_request? _ tag index, noArgsRecord_request? _ tag,
      noArgsRecord_request? _ tag, noArgsRecord_request? _ tag, overlaySet_request?,
      wordRecord_reads tag key fun _ => rfl, byteRecord_request? _ tag index, wordRecord_reads tag seq fun _ => rfl,
      noArgsRecord_request? _ tag, noArgsRecord_request? _ tag, journalRead_request? tag offset length,
      wordRecord_reads tag seq fun _ => rfl, linkStat_request? tag clear⟩
  · obtain ⟨hlength, hmax, kind, hkind, hargs⟩ := Record.request?_some h
    obtain ⟨key, second, b, flag, value, guard, hvalue, hguard, hsum, hrow⟩ := readArgs_standsInRows hargs
    rw [← hkind] at hsum hrow
    exact ⟨hlength, hmax, key, second, b, flag, value, guard, hvalue, hguard, hsum, hrow⟩

end Sys2Proof.Machine
end

section
/-! PROOF. Link frames: written and read back, their bits and their time on the line (R168, R169, R183). -/

namespace Sys2Proof.Machine

/-! ### Bytes of a frame -/

theorem bytesOfNat_length (width n : Nat) : (bytesOfNat width n).length = width := by
  induction width with
  | zero => rfl
  | succ width ih => rw [bytesOfNat, List.length_cons, ih]

theorem frameBytes_eq (type : FrameType) (tag code : Byte) (payload : Bytes) :
    frameBytes type tag code payload =
      type.code :: tag :: code :: byteOf payload.length ::
        (payload ++ bytesOfNat 4 (crc32 (frameHead type tag code payload)).toNat) := rfl

theorem frameBytes_length (type : FrameType) (tag code : Byte) (payload : Bytes) :
    (frameBytes type tag code payload).length = 8 + payload.length := by
  simp only [frameBytes_eq, List.length_cons, List.length_append, bytesOfNat_length]
  omega

theorem frameType?_code (type : FrameType) : frameType? type.code = some type := by
  cases type <;> decide

theorem frameType?_some {b : Byte} {type : FrameType} (h : frameType? b = some type) : b = type.code := by
  have hcode : type.code = b := by simpa using List.find?_some h
  exact hcode.symm

/-- The length byte of a payload that a frame can carry. -/
theorem payloadByte_toNat {payload : Bytes} (h : payload.length ≤ 60) : (byteOf payload.length).toNat = payload.length :=
  lengthByte_toNat (by omega)

/-- A frame of at most 60 payload bytes, none in an ACK or a RESET, reads back as itself (R169). -/
theorem readFrame_frameBytes {type : FrameType} {tag code : Byte} {payload : Bytes} (hlength : payload.length ≤ 60)
    (hempty : type = .ack ∨ type = .reset → payload = []) :
    readFrame (frameBytes type tag code payload) = some (type, tag, code, payload) := by
  have hbyte := payloadByte_toNat hlength
  have hfits : payload.length ≤ Config.maxArgs ∧
      (payload ++ bytesOfNat 4 (crc32 (frameHead type tag code payload)).toNat).length = payload.length + 4 := by
    refine ⟨hlength, ?_⟩
    rw [List.length_append, bytesOfNat_length]
  have hcontrol : ¬((type = .ack ∨ type = .reset) ∧ byteOf payload.length ≠ 0) := by
    rintro ⟨htype, hne⟩
    rw [hempty htype] at hne
    exact hne rfl
  rw [frameBytes_eq, readFrame]
  rw [hbyte, if_pos hfits]
  simp only [List.take_left, List.drop_left, frameType?_code, frameHead, ne_eq, not_true_eq_false, if_false]
  exact if_neg hcontrol

/-- Bytes that read as a frame are that frame's (R169). -/
theorem readFrame_some {bytes : Bytes} {type : FrameType} {tag code : Byte} {payload : Bytes}
    (h : readFrame bytes = some (type, tag, code, payload)) :
    bytes = frameBytes type tag code payload ∧ payload.length ≤ 60 ∧
      (type = .ack ∨ type = .reset → payload = []) := by
  unfold readFrame at h
  split at h
  next typeByte tag' code' length rest =>
    split at h
    next hfits =>
      obtain ⟨hmax, hrest⟩ := hfits
      dsimp only at h
      split at h
      next => cases h
      next type' htype =>
        split at h
        next => cases h
        next hcrc =>
          split at h
          next => cases h
          next hcontrol =>
            obtain ⟨rfl, rfl, rfl, rfl⟩ : type' = type ∧ tag' = tag ∧ code' = code ∧ rest.take length.toNat = payload := by
              simpa using h
            have htake : (rest.take length.toNat).length = length.toNat := List.length_take_of_le (by omega)
            have hlength : byteOf (rest.take length.toNat).length = length := by
              rw [htake]
              exact byte_of_toNat length
            refine ⟨?_, htake.trans_le hmax, fun hkind => ?_⟩
            · rw [frameBytes_eq, frameHead, hlength, ← frameType?_some htype, not_not.mp hcrc, List.take_append_drop]
            · have hzero : length = 0 := not_not.mp fun hne => hcontrol ⟨hkind, hne⟩
              rw [hzero]
              rfl
    next => cases h
  next => cases h

/-! ### Bits and symbols -/

theorem bit_toNat (b : Byte) (i : Nat) : (b.getLsbD i).toNat = b.toNat / 2 ^ i % 2 := by
  rw [← BitVec.testBit_toNat, Nat.toNat_testBit]

/-- One more bit of a number read from its most significant bit on. -/
theorem two_mul_div_pow_succ (n k : Nat) : 2 * (n / 2 ^ (k + 1)) + n / 2 ^ k % 2 = n / 2 ^ k := by
  rw [Nat.pow_succ, ← Nat.div_div_eq_div_mul]
  exact Nat.div_add_mod _ 2

/-- A byte is told by its bits, the most significant first (R168). -/
theorem byteOfBits_bitsOfByte (b : Byte) : byteOfBits (bitsOfByte b) = b := by
  have hfirst : 2 * 0 + b.toNat / 2 ^ 7 % 2 = b.toNat / 2 ^ 7 := by
    have hlt := b.isLt
    omega
  have hfold : (bitsOfByte b).foldl (fun n bit => 2 * n + bit.toNat) 0 = b.toNat / 2 ^ 0 := by
    simp only [bitsOfByte, List.foldl_cons, List.foldl_nil, bit_toNat]
    rw [hfirst, two_mul_div_pow_succ _ 6, two_mul_div_pow_succ _ 5, two_mul_div_pow_succ _ 4,
      two_mul_div_pow_succ _ 3, two_mul_div_pow_succ _ 2, two_mul_div_pow_succ _ 1, two_mul_div_pow_succ _ 0]
  rw [byteOfBits, hfold, pow_zero, Nat.div_one]
  exact byte_of_toNat b

theorem bytesOfBits_bits (bytes : Bytes) : bytesOfBits (bytes.flatMap bitsOfByte) = bytes := by
  induction bytes with
  | nil => rfl
  | cons b rest ih =>
    rw [List.flatMap_cons]
    show byteOfBits (bitsOfByte b) :: bytesOfBits (rest.flatMap bitsOfByte) = b :: rest
    rw [byteOfBits_bitsOfByte, ih]

/-- How long a symbol keeps the line, its low and the release after it. -/
def Symbol.lastsNs (x : Symbol) : Nat := x.lowNs + x.releasedNs

/-- Every bit lasts one bit time of 8 µs. -/
theorem bits_lastNs (bits : List Bool) : ((bits.map Symbol.bit).map Symbol.lastsNs).sum = 8000 * bits.length := by
  induction bits with
  | nil => rfl
  | cons b rest ih =>
    have hbit : (Symbol.bit b).lastsNs = 8000 := by cases b <;> rfl
    rw [List.map_cons, List.map_cons, List.sum_cons, ih, hbit, List.length_cons]
    omega

theorem bits_length (bytes : Bytes) : (bytes.flatMap bitsOfByte).length = 8 * bytes.length := by
  induction bytes with
  | nil => rfl
  | cons b rest ih =>
    rw [List.flatMap_cons, List.length_append, ih, List.length_cons]
    simp only [bitsOfByte, List.length_cons, List.length_nil]
    omega

theorem frameSymbols_eq (bytes : Bytes) :
    frameSymbols bytes =
      (List.range 16).map (fun i => Symbol.bit (i % 2 = 1)) ++ [Symbol.startMark] ++
        (bytes.flatMap bitsOfByte).map Symbol.bit ++ [Symbol.endMark] := by
  simp only [frameSymbols, List.append_assoc, List.cons_append, List.nil_append]

/-- The preamble takes 16 bit times, the start mark 4, each byte 8 and the end mark 2. -/
theorem frameSymbols_lastNs (bytes : Bytes) :
    ((frameSymbols bytes).map Symbol.lastsNs).sum = (22 + 8 * bytes.length) * 8000 := by
  have hpreamble : (((List.range 16).map fun i => Symbol.bit (i % 2 = 1)).map Symbol.lastsNs).sum = 16 * 8000 := rfl
  have hstart : ([Symbol.startMark].map Symbol.lastsNs).sum = 4 * 8000 := rfl
  have hend : ([Symbol.endMark].map Symbol.lastsNs).sum = 2 * 8000 := rfl
  rw [frameSymbols_eq]
  simp only [List.map_append, List.sum_append, hpreamble, hstart, hend, bits_lastNs, bits_length]
  omega

/-- A frame loaded into the link buffer is what the part sends in TX (R169, section 10.3). -/
theorem sends_of_loaded {type : FrameType} {tag code : Byte} {payload buffer : Bytes} {l : Link}
    (hlength : payload.length ≤ 60) (htx : l.state = .tx)
    (hbuffer : l.buffer = loadBuffer buffer (frameBytes type tag code payload)) :
    l.sends = frameSymbols (frameBytes type tag code payload) := by
  have hframe := frameBytes_length type tag code payload
  have hloaded : l.buffer = frameBytes type tag code payload ++ buffer.drop (8 + payload.length) := by
    rw [hbuffer, loadBuffer, hframe, List.take_of_length_le (by rw [hframe]; unfold Config.linkBufferBytes; omega)]
  have hdeclared : (l.buffer.getD 3 0).toNat = payload.length := by
    rw [hloaded]
    exact payloadByte_toNat hlength
  rw [Link.sends, if_pos htx, hdeclared, hloaded, ← hframe, List.take_left]

/-- Settles O16: frames both ways, bits by the byte they make up, symbols by the time each lasts. -/
theorem framesRead : Obligations.FramesRead := by
  refine ⟨rfl, fun type tag code payload => readFrame_frameBytes, fun bytes type tag code payload h => ?_,
    ⟨fun _ => rfl, bytesOfBits_bits, fun value => by cases value <;> rfl, rfl, rfl⟩,
    fun type tag code payload buffer l hlength => ⟨frameSymbols_eq _, ?_, sends_of_loaded hlength⟩⟩
  · obtain ⟨hbytes, hlength, hempty⟩ := readFrame_some h
    exact ⟨hbytes, hbytes, hlength, hempty⟩
  · refine (frameSymbols_lastNs _).trans ?_
    rw [frameBytes_length]
    omega

end Sys2Proof.Machine
end

section
/-! PROOF. The burning of bytes (R27, R28) and what a pulse, a readback and a moment's end make of the writer: BODY,
ENTRY, VERIFY, SEAL, APPLY, VOIDING and the revoke burn (R64 to R71, R98). -/

namespace Sys2Proof.Machine

/-! ### Runs of bytes -/

theorem hasStray_eq_true_iff (m : Memory) (x : Nat × Byte) : hasStray (m.read x.1) x.2 = true ↔ m.stray x := by
  simp only [hasStray, Memory.stray, decide_eq_true_eq]

theorem Memory.burnt_cons {m : Memory} {x : Nat × Byte} {rest : List (Nat × Byte)} :
    m.burnt (x :: rest) ↔ m.read x.1 = x.2 ∧ m.burnt rest := List.forall_mem_cons

/-- A run that begins with a byte at its target stops where the rest of it does. -/
theorem Memory.stopsAt_cons_of_read {m : Memory} {x next : Nat × Byte} {rest after : List (Nat × Byte)}
    (hx : m.read x.1 = x.2) : m.stopsAt (x :: rest) next after ↔ m.stopsAt rest next after := by
  constructor
  · rintro ⟨done, htodo, hdone, hnext⟩
    cases done with
    | nil =>
      obtain ⟨rfl, -⟩ := List.cons.inj htodo
      exact (hnext hx).elim
    | cons y done =>
      obtain ⟨-, hrest⟩ := List.cons.inj htodo
      exact ⟨done, hrest, (Memory.burnt_cons.mp hdone).2, hnext⟩
  · rintro ⟨done, rfl, hdone, hnext⟩
    exact ⟨x :: done, rfl, Memory.burnt_cons.mpr ⟨hx, hdone⟩, hnext⟩

/-- A run that begins with a byte off its target stops at it. -/
theorem Memory.stopsAt_cons_of_ne {m : Memory} {x next : Nat × Byte} {rest after : List (Nat × Byte)}
    (hx : m.read x.1 ≠ x.2) : m.stopsAt (x :: rest) next after ↔ next = x ∧ after = rest := by
  constructor
  · rintro ⟨done, htodo, hdone, -⟩
    cases done with
    | nil =>
      obtain ⟨rfl, rfl⟩ := List.cons.inj htodo
      exact ⟨rfl, rfl⟩
    | cons y done =>
      obtain ⟨rfl, -⟩ := List.cons.inj htodo
      exact (hx (Memory.burnt_cons.mp hdone).1).elim
  · rintro ⟨rfl, rfl⟩
    exact ⟨[], rfl, fun _ h => (List.not_mem_nil h).elim, hx⟩

theorem Memory.stopsAt_nil {m : Memory} {next : Nat × Byte} {after : List (Nat × Byte)} : ¬m.stopsAt [] next after := by
  rintro ⟨done, htodo, -⟩
  cases done <;> cases htodo

theorem runBytes_of_burnt {m : Memory} {todo : List (Nat × Byte)} (h : m.burnt todo) : runBytes m todo = .finished := by
  induction todo with
  | nil => rfl
  | cons x rest ih =>
    obtain ⟨hx, hrest⟩ := Memory.burnt_cons.mp h
    rw [runBytes, if_pos hx, ih hrest]

/-- A run goes by its first byte off the target: that byte fails it, or takes the next pulse (steps 1 and 2 of R27). -/
theorem runBytes_of_stopsAt {m : Memory} {todo after : List (Nat × Byte)} {next : Nat × Byte}
    (h : m.stopsAt todo next after) :
    runBytes m todo = if hasStray (m.read next.1) next.2 then .failed else .pulses (next :: after) 0 := by
  induction todo with
  | nil => exact (Memory.stopsAt_nil h).elim
  | cons x rest ih =>
    by_cases hx : m.read x.1 = x.2
    · rw [runBytes, if_pos hx, ih ((Memory.stopsAt_cons_of_read hx).mp h)]
    · obtain ⟨rfl, rfl⟩ := (Memory.stopsAt_cons_of_ne hx).mp h
      rw [runBytes, if_neg hx]

theorem runBytes_pulses {m : Memory} {todo after : List (Nat × Byte)} {next : Nat × Byte}
    (h : m.stopsAt todo next after) (hstray : ¬m.stray next) : runBytes m todo = .pulses (next :: after) 0 := by
  rw [runBytes_of_stopsAt h, if_neg (mt (hasStray_eq_true_iff m next).mp hstray)]

theorem runBytes_failed {m : Memory} {todo after : List (Nat × Byte)} {next : Nat × Byte}
    (h : m.stopsAt todo next after) (hstray : m.stray next) : runBytes m todo = .failed := by
  rw [runBytes_of_stopsAt h, if_pos ((hasStray_eq_true_iff m next).mpr hstray)]

theorem afterPulse_of_read {m : Memory} {x : Nat × Byte} {rest : List (Nat × Byte)} (h : m.read x.1 = x.2)
    (taken : Nat) : afterPulse m taken (x :: rest) = runBytes m rest := if_pos h

theorem afterPulse_of_burnt {m : Memory} {todo : List (Nat × Byte)} (h : m.burnt todo) (taken : Nat) :
    afterPulse m taken todo = .finished := by
  cases todo with
  | nil => rfl
  | cons x rest =>
    obtain ⟨hx, hrest⟩ := Memory.burnt_cons.mp h
    rw [afterPulse_of_read hx, runBytes_of_burnt hrest]

/-- A byte off its target without a stray bit waits for another pulse, up to the fourth (steps 3 and 5 of R27). -/
theorem afterPulse_of_ne {m : Memory} {x : Nat × Byte} {rest : List (Nat × Byte)} (h : m.read x.1 ≠ x.2)
    (hstray : ¬m.stray x) (taken : Nat) :
    afterPulse m taken (x :: rest) = if 4 ≤ taken then .failed else .pulses (x :: rest) taken := by
  rw [afterPulse, if_neg h, if_neg (mt (hasStray_eq_true_iff m x).mp hstray), Config.maxPulses]

theorem afterPulse_of_stray {m : Memory} {x : Nat × Byte} {rest : List (Nat × Byte)} (h : m.read x.1 ≠ x.2)
    (hstray : m.stray x) (taken : Nat) : afterPulse m taken (x :: rest) = .failed := by
  rw [afterPulse, if_neg h, if_pos ((hasStray_eq_true_iff m x).mpr hstray)]

theorem afterPulse_of_pulseFails {m : Memory} {pulses : Nat} {todo : List (Nat × Byte)}
    (h : m.pulseFails pulses todo) : afterPulse m (pulses + 1) todo = .failed := by
  obtain ⟨next, after, hstops, hfails⟩ := h
  cases todo with
  | nil => exact (Memory.stopsAt_nil hstops).elim
  | cons x rest =>
    by_cases hx : m.read x.1 = x.2
    · have hrest := (Memory.stopsAt_cons_of_read hx).mp hstops
      have hne : m.read next.1 ≠ next.2 := by
        obtain ⟨_, -, -, hne⟩ := hrest
        exact hne
      have hstray : m.stray next := hfails.resolve_right fun ⟨hfirst, _⟩ => by
        obtain ⟨rfl, -⟩ := List.cons.inj hfirst
        exact hne hx
      rw [afterPulse_of_read hx, runBytes_failed hrest hstray]
    · obtain ⟨rfl, rfl⟩ := (Memory.stopsAt_cons_of_ne hx).mp hstops
      by_cases hstray : m.stray next
      · exact afterPulse_of_stray hx hstray _
      · obtain ⟨-, hfourth⟩ := hfails.resolve_left hstray
        rw [afterPulse_of_ne hx hstray, if_pos hfourth]

/-! ### A pulse at the writer's step -/

theorem State.pulseCell_eq (s : State) (offset : Nat) (taken : Byte) :
    s.pulseCell offset taken = { s with array := s.arrayAfterPulse offset taken } := by
  unfold State.pulseCell State.arrayAfterPulse
  split <;> rfl

theorem exec_burnPulse {s : State} (hr : s.resetAsserted = false) (taken : Byte) :
    exec (.burnPulse taken) s = .next (s.burnPulse taken s.pauses).arbitrate.settle :=
  congrArg Host.Outcome.next (if_neg (by rw [hr]; decide))

theorem exec_verify {s : State} {a : ActiveJob} (hr : s.resetAsserted = false) (hw : s.writer = .verify)
    (ha : s.active = some a) : exec .verify s = .next (s.stepVerify a s.pauses).arbitrate.settle := by
  show Host.Outcome.next (s.running _) = _
  rw [State.running, if_neg (by rw [hr]; decide), hw, ha]

section
variable {s : State} {a : ActiveJob} {offset : Nat} {target : Byte} {rest : List (Nat × Byte)}

theorem exec_burnPulse_pulse (hr : s.resetAsserted = false) (ha : s.active = some a) (hm : a.moment = .none)
    (taken : Byte) : exec (.burnPulse taken) s = .next (s.pulse a taken s.pauses).arbitrate.settle := by
  have hpulse : s.burnPulse taken s.pauses = s.pulse a taken s.pauses := by
    rw [State.burnPulse, ha]
    dsimp only
    rw [hm]
  rw [exec_burnPulse hr, hpulse]

theorem State.pulse_of_body (hw : s.writer = .body) (ht : a.todo = (offset, target) :: rest) (taken : Byte)
    (pause : Bool) :
    s.pulse a taken pause = State.stepBody { s with array := s.arrayAfterPulse offset taken } a
      (afterPulse (s.arrayAfterPulse offset taken) (a.pulses + 1) a.todo) pause := by
  simp only [State.pulse, ht, hw, State.pulseCell_eq]

theorem State.pulse_of_entry (hw : s.writer = .entry) (ht : a.todo = (offset, target) :: rest) (taken : Byte)
    (pause : Bool) :
    s.pulse a taken pause = State.stepEntry { s with array := s.arrayAfterPulse offset taken } a
      (afterPulse (s.arrayAfterPulse offset taken) (a.pulses + 1) a.todo) := by
  simp only [State.pulse, ht, hw, State.pulseCell_eq]

theorem State.pulse_of_seal (hw : s.writer = .seal) (ht : a.todo = (offset, target) :: rest) (taken : Byte)
    (pause : Bool) :
    s.pulse a taken pause = State.stepSeal { s with array := s.arrayAfterPulse offset taken } a
      (afterPulse (s.arrayAfterPulse offset taken) (a.pulses + 1) a.todo) pause := by
  simp only [State.pulse, ht, hw, State.pulseCell_eq]

theorem State.pulse_of_voiding (hw : s.writer = .voiding) (ht : a.todo = (offset, target) :: rest) (taken : Byte)
    (pause : Bool) :
    s.pulse a taken pause = State.stepVoid { s with array := s.arrayAfterPulse offset taken } a
      (afterPulse (s.arrayAfterPulse offset taken) (a.pulses + 1) a.todo) := by
  simp only [State.pulse, ht, hw, State.pulseCell_eq]

theorem State.pulse_of_revoking (hw : s.writer = .revoking) (ht : a.todo = (offset, target) :: rest) (taken : Byte)
    (pause : Bool) :
    s.pulse a taken pause = State.stepRevoke { s with array := s.arrayAfterPulse offset taken } a
      (afterPulse (s.arrayAfterPulse offset taken) (a.pulses + 1) a.todo) := by
  simp only [State.pulse, ht, hw, State.pulseCell_eq]

/-- Whatever its burning step, a writer whose run needs another pulse stays in that step (R27). -/
theorem State.pulse_of_pulses (hw : s.writer ∈ [WriterState.body, .entry, .seal, .voiding, .revoking])
    (ht : a.todo = (offset, target) :: rest) (taken : Byte) (pause : Bool) {todo : List (Nat × Byte)} {pulses : Nat}
    (hrun : afterPulse (s.arrayAfterPulse offset taken) (a.pulses + 1) a.todo = .pulses todo pulses) :
    s.pulse a taken pause =
      State.burning { s with array := s.arrayAfterPulse offset taken } s.writer a todo pulses := by
  simp only [List.mem_cons, List.not_mem_nil, or_false] at hw
  obtain hw | hw | hw | hw | hw := hw
  · rw [State.pulse_of_body hw ht, hrun, hw]; rfl
  · rw [State.pulse_of_entry hw ht, hrun, hw]; rfl
  · rw [State.pulse_of_seal hw ht, hrun, hw]; rfl
  · rw [State.pulse_of_voiding hw ht, hrun, hw]; rfl
  · rw [State.pulse_of_revoking hw ht, hrun, hw]; rfl

end

/-- A writer that stays in its step changes its run of bytes alone. -/
theorem State.burning_of_current {s : State} {a : ActiveJob} (hm : a.moment = .none) (todo : List (Nat × Byte))
    (pulses : Nat) : s.burning s.writer a todo pulses = { s with active := some { a with todo := todo, pulses := pulses } } := by
  rw [State.burning, ← hm]

/-- A writer that burns keeps the array. -/
theorem State.burning_arbitrate {s : State} (h : s.grant = .writer) {step : WriterState} (hstep : step ≠ .idle)
    (a : ActiveJob) (todo : List (Nat × Byte)) (pulses : Nat) :
    (s.burning step a todo pulses).arbitrate = s.burning step a todo pulses :=
  State.arbitrate_of_held (.inr ⟨h, hstep⟩)

theorem State.holdAt_arbitrate {s : State} (h : s.grant = .writer) {step : WriterState} (hstep : step ≠ .idle)
    (a : ActiveJob) (moment : Moment) : (s.holdAt step a moment).arbitrate = s.holdAt step a moment :=
  State.arbitrate_of_held (.inr ⟨h, hstep⟩)

/-- Settles O24: the readback decides by R27's steps; the writer that stays in its step keeps the array. -/
theorem burnPulseGoesOn : Obligations.BurnPulseGoesOn := by
  intro s a offset target rest taken hr hg ha hm ht hw m
  have hgoesOn : ∀ todo pulses, afterPulse m (a.pulses + 1) a.todo = .pulses todo pulses →
      exec (.burnPulse taken) s = .next
        { s with array := m, active := some { a with todo := todo, pulses := pulses } }.settle := fun todo pulses hrun => by
    have hbusy : s.writer ≠ .idle := fun hidle => by rw [hidle] at hw; exact absurd hw (by decide)
    rw [exec_burnPulse_pulse hr ha hm, State.pulse_of_pulses hw ht taken s.pauses hrun,
      State.burning_arbitrate (s := { s with array := s.arrayAfterPulse offset taken }) hg hbusy]
    exact congrArg (fun t : State => Host.Outcome.next t.settle)
      (State.burning_of_current (s := { s with array := m }) hm todo pulses)
  refine ⟨fun hwf x => State.read_arrayAfterPulse hwf offset x taken, fun hne hstray hfew => ?_,
    fun next after hread hstops hstray => ?_⟩
  · rw [hgoesOn a.todo (a.pulses + 1) ?_]
    rw [ht, afterPulse_of_ne (x := (offset, target)) hne hstray, if_neg (by omega)]
  · refine hgoesOn (next :: after) 0 ?_
    rw [ht, afterPulse_of_read (x := (offset, target)) hread, runBytes_pulses hstops hstray]

/-! ### Void and revoke -/

theorem State.stepVoid_finished (s : State) (a : ActiveJob) :
    s.stepVoid a .finished = (s.setEntryState (a.slot + 1) .void).endCommit a.job .burnFault (some (a.slot + 1)) none := rfl

theorem State.stepVoid_failed (s : State) (a : ActiveJob) :
    s.stepVoid a .failed = ({ s with journal := .faulted } : State).endCommit a.job .burnFault (some (a.slot + 1)) none :=
  rfl

/-- A revoke burn that is over ends by the revoke field: any bit makes the entry REVOKED (R98). -/
theorem State.stepRevoke_of_over {s : State} {a : ActiveJob} {r : BurnRun} (h : r = .finished ∨ r = .failed) :
    s.stepRevoke a r =
      if s.array.read (slotOffset a.slot + 15) = 0 then
        ({ s with journal := .faulted } : State).endRevoke a.job .revokeFault (a.slot + 1)
      else (s.setEntryState (a.slot + 1) .revoked).endRevoke a.job .done (a.slot + 1) := by
  obtain rfl | rfl := h <;> rfl

/-- No byte has a bit that FFh has not. -/
theorem Memory.not_stray_ones (m : Memory) (offset : Nat) : ¬m.stray (offset, 0xFF) := by
  have hnone : m.read offset &&& ~~~(0xFF : Byte) = 0 := by
    rw [show ~~~(0xFF : Byte) = 0 from rfl]
    exact BitVec.and_zero
  exact not_not.mpr hnone

/-- The readback of the revoke field, the run's one byte, ends the burn at its target or at the fourth pulse. -/
theorem afterPulse_revokeField {m : Memory} {offset taken : Nat} (h : m.read offset = 0xFF ∨ 4 ≤ taken) :
    afterPulse m taken [(offset, 0xFF)] = .finished ∨ afterPulse m taken [(offset, 0xFF)] = .failed := by
  by_cases hread : m.read offset = 0xFF
  · exact .inl (afterPulse_of_read (x := (offset, 0xFF)) hread taken)
  · right
    rw [afterPulse_of_ne (x := (offset, 0xFF)) hread (m.not_stray_ones offset), if_pos (h.resolve_left hread)]

/-- Settles O32: the end of each run by its readback. -/
theorem voidAndRevokeEnd : Obligations.VoidAndRevokeEnd := by
  refine ⟨fun s a offset target taken rest hr hw ha hm ht => ⟨fun hburnt => ?_, fun hfails => ?_⟩,
    fun s a taken hr hw ha hm ht => ?_⟩
  · rw [exec_burnPulse_pulse hr ha hm, State.pulse_of_voiding hw ht, afterPulse_of_burnt hburnt, State.stepVoid_finished]
    rfl
  · rw [exec_burnPulse_pulse hr ha hm, State.pulse_of_voiding hw ht, afterPulse_of_pulseFails hfails,
      State.stepVoid_failed]
  · intro m field
    have hover : field = 0xFF ∨ 4 ≤ a.pulses + 1 → exec (.burnPulse taken) s = .next
        (if field = 0 then
          (({ s with array := m, journal := .faulted } : State).endRevoke a.job .revokeFault (a.slot + 1))
        else
          ((State.setEntryState { s with array := m } (a.slot + 1) .revoked).endRevoke a.job .done
            (a.slot + 1))).arbitrate.settle := fun h => by
      have hrun := afterPulse_revokeField (taken := a.pulses + 1) h
      rw [← ht] at hrun
      rw [exec_burnPulse_pulse hr ha hm, State.pulse_of_revoking hw ht, State.stepRevoke_of_over hrun]
    refine ⟨fun hset => ?_, fun hzero hfourth => ?_⟩
    · have hne : field ≠ 0 := hset.elim (fun hall hzero => nomatch hall.symm.trans hzero) And.left
      rw [hover (hset.imp id And.right), if_neg hne]
      rfl
    · rw [hover (.inr hfourth), if_pos hzero]

end Sys2Proof.Machine
end

section
/-! PROOF. A commit's slot through the writer: the end of BODY, ENTRY, VERIFY and SEAL, the apply of the patch, and the
void (R64 to R71), with the moments at which the part may pause (log entry 6). -/

namespace Sys2Proof.Machine

/-! ### The steps by how their run stands -/

theorem State.stepBody_finished (s : State) (a : ActiveJob) (pause : Bool) :
    s.stepBody a .finished pause = s.finishBody a true pause := rfl

theorem State.stepBody_failed (s : State) (a : ActiveJob) (pause : Bool) :
    s.stepBody a .failed pause = s.finishBody a false pause := rfl

theorem State.stepEntry_finished (s : State) (a : ActiveJob) : s.stepEntry a .finished = s.burning .verify a [] 0 := rfl

theorem State.stepEntry_failed (s : State) (a : ActiveJob) : s.stepEntry a .failed = s.voidSlot a := rfl

theorem State.stepSeal_failed (s : State) (a : ActiveJob) (pause : Bool) : s.stepSeal a .failed pause = s.voidSlot a := rfl

theorem State.stepSeal_finished (s : State) (a : ActiveJob) (pause : Bool) :
    s.stepSeal a .finished pause =
      if pause then (s.setEntryState a.seq .sealed).holdAt .apply a .sealed
      else (s.setEntryState a.seq .sealed).applyPatch a false := rfl

/-- The arbiter after a step that pauses or goes on: held at its moment, the writer keeps the array. -/
theorem State.arbitrate_of_pause {s t : State} {step : WriterState} {a : ActiveJob} {moment : Moment} {pause : Bool}
    (hg : s.grant = .writer) (hstep : step ≠ .idle) :
    (if pause then s.holdAt step a moment else t).arbitrate =
      if pause = true then
        { s with writer := step, active := some { a with todo := [], pulses := 0, moment := moment } }
      else t.arbitrate := by
  split
  · exact State.holdAt_arbitrate hg hstep a moment
  · rfl

/-! ### The slot begun -/

/-- Bytes 2 to 9 of the job's entry, as R33 lays them out. -/
def ActiveJob.plannedBytes (a : ActiveJob) : Bytes :=
  bytesOfNat 2 (a.slot + 1) ++ [BitVec.ofNat 8 a.job.port.number, BitVec.ofNat 8 a.count] ++
    bytesOfNat 2 a.bodyOffset ++ bytesOfNat 2 a.bodyLength

theorem entryBytes_eq (kind : Byte) (a : ActiveJob) (crc : Word32) :
    entryBytes kind a.seq a.job.port.number a.count a.bodyOffset a.bodyLength crc =
      [0xD5, kind] ++ a.plannedBytes ++ bytesOfNat 4 crc.toNat := by
  simp only [entryBytes, ActiveJob.plannedBytes, field16, byteOf, ActiveJob.seq, List.append_assoc]

theorem State.leaveBody_whole (s : State) (a : ActiveJob) :
    s.leaveBody a true = (s.beginSlot a).stepEntry a
      (runBytes s.array (burnsAt (slotOffset a.slot)
        ([0xD5, 0x3C] ++ a.plannedBytes ++ bytesOfNat 4 a.crc.toNat))) := by
  rw [← entryBytes_eq]
  rfl

theorem State.leaveBody_failed (s : State) (a : ActiveJob) :
    s.leaveBody a false = (s.beginSlot a).stepVoid a
      (runBytes s.array (burnsAt (slotOffset a.slot) ([0xD5, 0xFF] ++ a.plannedBytes ++ [0, 0, 0, 0] ++ [0xA5]))) := by
  have hzero : ([0, 0, 0, 0] : Bytes) = bytesOfNat 4 (0 : Word32).toNat := rfl
  rw [hzero, ← entryBytes_eq]
  rfl

/-- Settles O25: BODY by its last readback, then the slot by how its bytes stand. -/
theorem bodyEnds : Obligations.BodyEnds := by
  refine ⟨fun s a offset target rest taken hr hg hw ha hm ht => ?_, fun s a whole taken hr ha hm => ?_, fun s a => ?_⟩
  · intro m ended outcome
    have hends : ∀ whole r, afterPulse m (a.pulses + 1) a.todo = r →
        State.stepBody { s with array := m } a r s.pauses = State.finishBody { s with array := m } a whole s.pauses →
        exec (.burnPulse taken) s = .next (outcome whole).settle := fun whole r hrun hstep => by
      rw [exec_burnPulse_pulse hr ha hm, State.pulse_of_body hw ht, hrun, hstep]
      refine congrArg (fun t : State => Host.Outcome.next t.settle) ?_
      refine (State.arbitrate_of_pause (s := ended) hg (by decide)).trans ?_
      rw [← hw]
      rfl
    exact ⟨fun hburnt => hends true _ (afterPulse_of_burnt hburnt _) (State.stepBody_finished _ _ _),
      fun hfails => hends false _ (afterPulse_of_pulseFails hfails) (State.stepBody_failed _ _ _)⟩
  · rw [exec_burnPulse hr, State.burnPulse, ha]
    dsimp only
    rw [hm]
  · intro begun planned entry void
    refine ⟨fun hburnt => ?_, fun hburnt => ?_, fun next after => ⟨fun hstops => ⟨fun hclean => ?_, fun hstray => ?_⟩,
      fun hstops => ⟨fun hclean => ?_, fun hstray => ?_⟩⟩⟩
    · exact (s.leaveBody_whole a).trans (congrArg _ (runBytes_of_burnt hburnt))
    · exact (s.leaveBody_failed a).trans (congrArg _ (runBytes_of_burnt hburnt))
    · exact (s.leaveBody_whole a).trans (congrArg _ (runBytes_pulses hstops hclean))
    · exact (s.leaveBody_whole a).trans (congrArg _ (runBytes_failed hstops hstray))
    · exact (s.leaveBody_failed a).trans (congrArg _ (runBytes_pulses hstops hclean))
    · exact (s.leaveBody_failed a).trans (congrArg _ (runBytes_failed hstops hstray))

/-! ### VERIFY and SEAL -/

theorem State.stepVerify_of_agrees {s : State} {a : ActiveJob}
    (h : crc32 (s.array.readRange a.bodyOffset a.bodyLength) = a.crc) (pause : Bool) :
    s.stepVerify a pause = s.stepSeal a (runBytes s.array [(slotOffset a.slot + 14, 0xA5)]) pause := if_pos h

theorem State.stepVerify_of_differs {s : State} {a : ActiveJob}
    (h : crc32 (s.array.readRange a.bodyOffset a.bodyLength) ≠ a.crc) (pause : Bool) :
    s.stepVerify a pause = s.voidSlot a := if_neg h

/-- A byte with a stray bit is off its target. -/
theorem Memory.stray.ne {m : Memory} {x : Nat × Byte} (h : m.stray x) : m.read x.1 ≠ x.2 := fun heq => by
  rw [Memory.stray, heq] at h
  exact h (BitVec.and_not_self _)

theorem Memory.stopsAt_single {m : Memory} {x : Nat × Byte} (h : m.read x.1 ≠ x.2) : m.stopsAt [x] x [] :=
  (Memory.stopsAt_cons_of_ne h).mpr ⟨rfl, rfl⟩

/-- Settles O26: VERIFY by the code and the seal byte, ENTRY and SEAL by their last readback, the void by its two
bytes. -/
theorem slotGoesOn : Obligations.SlotGoesOn := by
  refine ⟨fun s a hr hg ha => ?_, fun s a => ?_⟩
  · intro last
    refine ⟨fun hw => ⟨fun hagrees hread hclean => ?_, fun hvoids => ?_⟩, fun offset target rest taken hm ht => ?_⟩
    · rw [exec_verify hr hw ha, State.stepVerify_of_agrees hagrees,
        runBytes_pulses (Memory.stopsAt_single (x := last) hread) hclean]
      exact congrArg (fun t : State => Host.Outcome.next t.settle)
        (State.burning_arbitrate (step := .seal) hg (by decide) a [last] 0)
    · rw [exec_verify hr hw ha]
      by_cases hagrees : crc32 (s.array.readRange a.bodyOffset a.bodyLength) = a.crc
      · have hstray := hvoids.resolve_left (not_not.mpr hagrees)
        rw [State.stepVerify_of_agrees hagrees, runBytes_failed (Memory.stopsAt_single (x := last) hstray.ne) hstray,
          State.stepSeal_failed]
      · rw [State.stepVerify_of_differs hagrees]
    · intro m
      refine ⟨fun hw hburnt => ?_, fun hw hfails => ?_⟩
      · rw [exec_burnPulse_pulse hr ha hm, State.pulse_of_entry hw ht, afterPulse_of_burnt hburnt,
          State.stepEntry_finished]
        exact congrArg (fun t : State => Host.Outcome.next t.settle)
          (State.burning_arbitrate (s := { s with array := m }) (step := .verify) hg (by decide) a [] 0)
      · rw [exec_burnPulse_pulse hr ha hm]
        obtain hw | hw := hw
        · rw [State.pulse_of_entry hw ht, afterPulse_of_pulseFails hfails, State.stepEntry_failed]
        · rw [State.pulse_of_seal hw ht, afterPulse_of_pulseFails hfails, State.stepSeal_failed]
  · intro void
    refine ⟨fun hburnt => ?_, fun next after hstops => ⟨fun hclean => ?_, fun hstray => ?_⟩⟩
    · exact congrArg (s.stepVoid a) (runBytes_of_burnt hburnt)
    · exact congrArg (s.stepVoid a) (runBytes_pulses hstops hclean)
    · exact congrArg (s.stepVoid a) (runBytes_failed hstops hstray)

/-! ### APPLY -/

theorem State.applyPatch_eq (s : State) (a : ActiveJob) (pause : Bool) :
    let seq := a.slot + 1
    let actions := (s.staging.get a.job.port).actions
    let applied : State :=
      { s with
        index := s.index.map fun r => if r.seq = seq then { r with applied := true } else r
        table := actions.foldl (applyToTable seq) s.table
        overlays := s.overlays.filter fun o => !actions.any fun x => x.pin && x.key = o.key }
    let told := applied.sendReports (applyReports s applied actions a.job.port seq)
    s.applyPatch a pause =
      if pause = true then
        { told with writer := .apply, active := some { a with todo := [], pulses := 0, moment := .applied } }
      else told.endCommit a.job .done (some seq) none := rfl

/-- Settles O28: the seal verified by a pulse or found standing, the moments gone on from, and the apply. -/
theorem sealAppliesPatch : Obligations.SealAppliesPatch := by
  refine ⟨⟨fun s a offset target taken hr hg hw ha hm ht => ?_, fun s a hr hg hw ha hagrees hread => ?_,
    fun s a taken hr ha => ⟨fun hm => ?_, fun hm => ?_⟩⟩, fun _ _ _ => rfl, State.applyPatch_eq⟩
  · intro m done hread
    have hburnt : m.burnt a.todo := ht ▸ Memory.burnt_cons.mpr ⟨hread, fun _ h => (List.not_mem_nil h).elim⟩
    rw [exec_burnPulse_pulse hr ha hm, State.pulse_of_seal hw ht, afterPulse_of_burnt hburnt, State.stepSeal_finished]
    exact congrArg (fun t : State => Host.Outcome.next t.settle) (State.arbitrate_of_pause (s := done) hg (by decide))
  · intro done
    have hburnt : s.array.burnt [(slotOffset a.slot + 14, 0xA5)] :=
      Memory.burnt_cons.mpr ⟨hread, fun _ h => (List.not_mem_nil h).elim⟩
    rw [exec_verify hr hw ha, State.stepVerify_of_agrees hagrees, runBytes_of_burnt hburnt, State.stepSeal_finished]
    exact congrArg (fun t : State => Host.Outcome.next t.settle) (State.arbitrate_of_pause (s := done) hg (by decide))
  · rw [exec_burnPulse hr, State.burnPulse, ha]
    dsimp only
    rw [hm]
  · rw [exec_burnPulse hr, State.burnPulse, ha]
    dsimp only
    rw [hm]
    rfl

end Sys2Proof.Machine
end

section
/-! PROOF. What a patch apply makes of each key's record (R15, R22), and a job's first tests: the precheck of a commit
and the tests of a revoke (R61, R62, R97). -/

namespace Sys2Proof.Machine

/-! ### The patch apply, key by key -/

/-- One action at one record (R22). -/
def KeyRecord.takeAction (seq : Nat) (r : KeyRecord) (a : Action) : KeyRecord :=
  match descriptor? a.key with
  | none => r
  | some d => if r.key = a.key then r.applyAction d seq a else r

theorem applyToTable_eq_map (seq : Nat) (table : List KeyRecord) (a : Action) :
    applyToTable seq table a = table.map fun r => r.takeAction seq a := by
  unfold applyToTable KeyRecord.takeAction
  cases descriptor? a.key with
  | none => exact table.map_id.symm
  | some d => rfl

theorem foldl_applyToTable (seq : Nat) (actions : List Action) (table : List KeyRecord) :
    actions.foldl (applyToTable seq) table = table.map fun r => actions.foldl (KeyRecord.takeAction seq) r := by
  induction actions generalizing table with
  | nil => exact table.map_id.symm
  | cons a rest ih =>
    rw [List.foldl_cons, ih, applyToTable_eq_map, List.map_map]
    rfl

theorem KeyRecord.takeAction_of_ne {seq : Nat} {r : KeyRecord} {a : Action} (h : a.key ≠ r.key) :
    r.takeAction seq a = r := by
  unfold KeyRecord.takeAction
  cases descriptor? a.key with
  | none => rfl
  | some d => exact if_neg (Ne.symm h)

theorem KeyRecord.foldl_takeAction_of_ne {seq : Nat} {r : KeyRecord} {actions : List Action}
    (h : ∀ a ∈ actions, a.key ≠ r.key) : actions.foldl (KeyRecord.takeAction seq) r = r := by
  induction actions with
  | nil => rfl
  | cons a rest ih =>
    obtain ⟨ha, hrest⟩ := List.forall_mem_cons.mp h
    rw [List.foldl_cons, KeyRecord.takeAction_of_ne ha, ih hrest]

theorem KeyRecord.takeAction_key (seq : Nat) (r : KeyRecord) (a : Action) : (r.takeAction seq a).key = r.key := by
  unfold KeyRecord.takeAction
  split
  · rfl
  · split
    · exact r.applyAction_key _ seq a
    · rfl

/-- Of a list with one action per key, a record takes the one on its own key (R22). -/
theorem KeyRecord.foldl_takeAction {seq : Nat} {r : KeyRecord} {actions : List Action}
    (h : (actions.map Action.key).Nodup) :
    actions.foldl (KeyRecord.takeAction seq) r =
      ((actions.find? (·.key = r.key)).map (r.takeAction seq)).getD r := by
  induction actions with
  | nil => rfl
  | cons a rest ih =>
    obtain ⟨hfresh, hrest⟩ := List.nodup_cons.mp h
    rw [List.foldl_cons, List.find?_cons]
    by_cases ha : a.key = r.key
    · have hothers : ∀ x ∈ rest, x.key ≠ (r.takeAction seq a).key := fun x hx heq => by
        rw [KeyRecord.takeAction_key, ← ha] at heq
        exact hfresh (heq ▸ List.mem_map_of_mem hx)
      rw [KeyRecord.foldl_takeAction_of_ne hothers, decide_eq_true ha]
      rfl
    · rw [KeyRecord.takeAction_of_ne ha, decide_eq_false ha, ih hrest]

/-- Settles O31: the list's actions at each record come down to the one on its key, and that one by its operation and
the key's apply mode. -/
theorem patchApplies : Obligations.PatchApplies := by
  intro seq actions table hkeys _
  rw [foldl_applyToTable]
  refine List.map_congr_left fun r _ => ?_
  rw [KeyRecord.foldl_takeAction hkeys]
  cases hfind : actions.find? (·.key = r.key) with
  | none => rfl
  | some x =>
    have hx : x.key = r.key := by simpa using List.find?_some hfind
    rw [Option.map_some, Option.getD_some, KeyRecord.takeAction, hx]
    cases descriptor? r.key with
    | none => rfl
    | some c =>
      dsimp only
      rw [if_pos rfl, KeyRecord.applyAction]
      cases x.op with
      | keep => rfl
      | assign v => cases hmode : c.applyMode <;> rfl
      | retire => cases hmode : c.applyMode <;> rfl

/-! ### The precheck of a commit -/

theorem State.grantsAction_eq (s : State) (p : Port) (a : Action) :
    s.grantsAction p a = (descriptor? a.key).any fun c => s.holdsClass p c.keyClass := by
  unfold State.grantsAction
  cases descriptor? a.key <;> rfl

theorem Action.onClassSeven_eq (a : Action) : a.onClassSeven = (descriptor? a.key).any fun c => c.keyClass = 7 := by
  unfold Action.onClassSeven
  cases descriptor? a.key <;> rfl

theorem State.entryFits_iff (s : State) (actions : List Action) :
    s.entryFits actions = true ↔ s.slotsUsed < 256 ∧
      if actions.all (fun x => (descriptor? x.key).any fun c => c.keyClass = 7) then
        encodedLength actions + 16 ≤ s.freeSpace
      else encodedLength actions + 16 + s.activeNumber keyCommitReserve ≤ s.freeSpace := by
  have hclass : Action.onClassSeven = fun x => (descriptor? x.key).any fun c => c.keyClass = 7 :=
    funext Action.onClassSeven_eq
  rw [State.entryFits, hclass, Bool.and_eq_true, decide_eq_true_eq]
  refine and_congr Iff.rfl ?_
  split
  · exact decide_eq_true_iff
  · exact decide_eq_true_iff

theorem State.planIsBlank_iff (s : State) (actions : List Action) :
    s.planIsBlank actions = true ↔
      ¬(s.array.readRange s.bodyTop (encodedLength actions) ++
        s.array.readRange (slotOffset s.slotsUsed) 16).any (· ≠ 0) = true := by
  simp [State.planIsBlank, Memory.isBlank, Config.slotBytes]

/-- The tests of R62 in their order, each with its result. -/
theorem precheck_eq (s : State) (p : Port) (actions : List Action) :
    precheck s p actions =
      if s.journal = .faulted then some (.journalFaulted, none)
      else if s.burnEn = false then some (.locked, none)
      else if actions.any (fun x => !(descriptor? x.key).any fun c => s.holdsClass p c.keyClass) then
        some (.denied, none)
      else if actions.any (s.isPinned ·.key) then some (.pinned, none)
      else if (actions.findIdx? fun x => !guardHolds s x) ≠ none then
        some (.guardFailed, actions.findIdx? fun x => !guardHolds s x)
      else if ¬(s.slotsUsed < 256 ∧
          if actions.all (fun x => (descriptor? x.key).any fun c => c.keyClass = 7) then
            encodedLength actions + 16 ≤ s.freeSpace
          else encodedLength actions + 16 + s.activeNumber keyCommitReserve ≤ s.freeSpace) then
        some (.noSpace, none)
      else if (s.array.readRange s.bodyTop (encodedLength actions) ++
          s.array.readRange (slotOffset s.slotsUsed) 16).any (· ≠ 0) then some (.notBlank, none)
      else none := by
  have hgrants : (!actions.all (s.grantsAction p)) =
      actions.any fun x => !(descriptor? x.key).any fun c => s.holdsClass p c.keyClass := by
    rw [funext (s.grantsAction_eq p), List.not_all_eq_any_not]
  have hblank : (!s.planIsBlank actions) =
      (s.array.readRange s.bodyTop (encodedLength actions) ++
        s.array.readRange (slotOffset s.slotsUsed) 16).any (· ≠ 0) := by
    rw [Bool.eq_iff_iff, Bool.not_eq_true', Bool.eq_false_iff, Ne, State.planIsBlank_iff, not_not]
  have hfits : ((!s.entryFits actions) = true) = ¬(s.slotsUsed < 256 ∧
      if actions.all (fun x => (descriptor? x.key).any fun c => c.keyClass = 7) then
        encodedLength actions + 16 ≤ s.freeSpace
      else encodedLength actions + 16 + s.activeNumber keyCommitReserve ≤ s.freeSpace) := by
    rw [Bool.not_eq_true', Bool.eq_false_iff, Ne, State.entryFits_iff]
  simp only [precheck, hgrants, hblank, hfits, Bool.not_eq_true']
  cases actions.findIdx? fun x => !guardHolds s x with
  | none => rfl
  | some i => rfl

/-- What the outcome of a precheck makes of the commit the writer holds (R62 to R64). -/
def State.afterPrecheck (s : State) (j : Job) (actions : List Action) : Option (Result × Option Nat) → State
  | some (.notBlank, failIndex) => ({ s with journal := .faulted } : State).endCommit j .notBlank none failIndex
  | some (result, failIndex) => s.endCommit j result none failIndex
  | none => s.stepBody (s.commitPlan j actions) (runBytes s.array (s.commitPlan j actions).todo) s.pauses

theorem State.testCommit_eq (s : State) (j : Job) :
    s.testCommit j = s.afterPrecheck j (s.staging.get j.port).actions
      (precheck s j.port (s.staging.get j.port).actions) := by
  unfold State.testCommit State.afterPrecheck
  rfl

/-- On a blank plan BODY begins with the first byte of the body, the count, which is not 00h. -/
theorem State.afterPrecheck_passed {s : State} {j : Job} {actions : List Action} (hne : actions ≠ [])
    (hlength : actions.length ≤ 24)
    (hblank : ¬(s.array.readRange s.bodyTop (encodedLength actions) ++
      s.array.readRange (slotOffset s.slotsUsed) 16).any (· ≠ 0) = true) :
    s.afterPrecheck j actions none =
      { s with writer := .body, active := some (s.commitPlan j actions) } := by
  have hone : 1 ≤ encodedLength actions := by
    rw [encodedLength_eq]
    omega
  have hzero : s.array.read s.bodyTop = 0 := by
    by_contra hread
    refine hblank (List.any_eq_true.mpr ⟨s.array.read s.bodyTop, List.mem_append_left _ ?_, by simpa using hread⟩)
    exact List.mem_map.mpr ⟨0, List.mem_range.mpr hone, rfl⟩
  have hcount : byteOf actions.length ≠ 0 := fun hbyte => by
    have hnat : actions.length % 256 = 0 := (BitVec.toNat_ofNat _ _).symm.trans (congrArg BitVec.toNat hbyte)
    have hpos := List.length_pos_of_ne_nil hne
    omega
  have hstops : s.array.stopsAt (s.commitPlan j actions).todo (s.bodyTop, byteOf actions.length)
      (burnsAt (s.bodyTop + 1) (actions.flatMap Action.bytes)) :=
    (Memory.stopsAt_cons_of_ne (by rw [hzero]; exact hcount.symm)).mpr ⟨rfl, rfl⟩
  have hclean : ¬s.array.stray (s.bodyTop, byteOf actions.length) := by
    rw [Memory.stray, hzero]
    exact not_not.mpr BitVec.zero_and
  show s.stepBody _ (runBytes s.array (s.commitPlan j actions).todo) s.pauses = _
  rw [runBytes_pulses hstops hclean]
  rfl

/-! ### The tests of a revoke -/

/-- What the tests of R97 make of the revoke the writer holds (R97, R98). -/
def State.afterRevokeTests (s : State) (j : Job) (target : Nat) : Option Result → State
  | some result => s.endRevoke j result target
  | none =>
    s.stepRevoke { ActiveJob.granted j with slot := target - 1, moment := .none }
      (runBytes s.array [(slotOffset (target - 1) + 15, 0xFF)])

theorem State.testRevoke_eq_afterRevokeTests (s : State) (j : Job) (target : Nat) :
    s.testRevoke j target = s.afterRevokeTests j target (revokeRefusal s j.port target) := by
  unfold State.testRevoke State.afterRevokeTests
  rfl

theorem State.testRevoke_eq (s : State) (j : Job) {target : Nat} (htarget : 1 ≤ target) :
    s.testRevoke j target =
      match s.index.find? (·.seq = target) with
      | none => s.endRevoke j .notRevocable target
      | some e =>
        if e.state ≠ .sealed then s.endRevoke j .notRevocable target
        else if e.origin ≠ j.port.number ∧ s.holdsClass j.port 7 = false then s.endRevoke j .denied target
        else if s.burnEn = false then s.endRevoke j .locked target
        else if s.array.read (slotOffset (target - 1) + 15) = 0xFF then
          (s.setEntryState target .revoked).endRevoke j .done target
        else
          { s with
            writer := .revoking
            active := some
              { ActiveJob.granted j with
                slot := target - 1, todo := [(slotOffset (target - 1) + 15, 0xFF)], moment := .none } } := by
  have hburn : s.afterRevokeTests j target none =
      if s.array.read (slotOffset (target - 1) + 15) = 0xFF then
        (s.setEntryState target .revoked).endRevoke j .done target
      else
        { s with
          writer := .revoking
          active := some
            { ActiveJob.granted j with
              slot := target - 1, todo := [(slotOffset (target - 1) + 15, 0xFF)], moment := .none } } := by
    have hseq : target - 1 + 1 = target := by omega
    split
    next hread =>
      have hburnt : s.array.burnt [(slotOffset (target - 1) + 15, 0xFF)] :=
        Memory.burnt_cons.mpr ⟨hread, fun _ h => (List.not_mem_nil h).elim⟩
      have hset : s.array.read (slotOffset (target - 1) + 15) ≠ 0 := by
        rw [hread]
        decide
      rw [State.afterRevokeTests, runBytes_of_burnt hburnt, State.stepRevoke_of_over (.inl rfl), if_neg hset, hseq]
      rfl
    next hread =>
      rw [State.afterRevokeTests, runBytes_pulses (Memory.stopsAt_single (x := (_, 0xFF)) hread) (Memory.not_stray_ones _ _)]
      rfl
  rw [State.testRevoke_eq_afterRevokeTests, revokeRefusal, State.entry?]
  cases s.index.find? (·.seq = target) with
  | none => rfl
  | some e =>
    simp only [Bool.not_eq_true', apply_ite (s.afterRevokeTests j target), hburn]
    rfl

/-- Settles O33: the grant, the moment it may pause at, and the tests of each kind of job in their order. -/
theorem jobsStart : Obligations.JobsStart := by
  refine ⟨⟨fun s j => ?_, fun s a taken hr ha hm => ?_⟩, fun s j hkind => ?_, fun s j target hkind htarget => ?_⟩
  · intro held granted
    have hgranted : s.grantJob j = granted := by
      unfold State.grantJob
      cases hkind : j.kind <;> simp only [granted, hkind] <;> rfl
    rw [State.startJob, hgranted]
  · rw [exec_burnPulse hr, State.burnPulse, ha]
    dsimp only
    rw [hm]
  · intro actions needs guardFails _ hne hlength
    have htest : s.testJob j = s.afterPrecheck j actions (precheck s j.port actions) := by
      rw [State.testJob, hkind]
      exact s.testCommit_eq j
    rw [htest, precheck_eq]
    simp only [apply_ite (s.afterPrecheck j actions)]
    by_cases hblank : (s.array.readRange s.bodyTop (encodedLength actions) ++
        s.array.readRange (slotOffset s.slotsUsed) 16).any (· ≠ 0) = true
    · rw [if_pos hblank, if_pos hblank]
      rfl
    · rw [if_neg hblank, if_neg hblank, State.afterPrecheck_passed hne hlength hblank]
      rfl
  · rw [State.testJob, hkind]
    exact s.testRevoke_eq j htarget

end Sys2Proof.Machine
end

section
/-! PROOF. The windows: a record delivered, the control codes, and the bytes written and read (R144, R147, R157 to
R165). -/

namespace Sys2Proof.Machine

/-! ### A record delivered -/

/-- Steps 1 and 2 of R144, the common tests written out (R147). -/
theorem State.deliver_eq (s : State) (p : Port) (r : Record) :
    s.deliver p r = s.setHandler p
      { state := .executing, current := some r, abandoned := false, stored := none
        lastTag := if p = .port2 then r.tag else (s.handler.get p).lastTag
        service :=
          if s.isDisabled p = true then .answered ⟨.disabled, r.tag, []⟩
          else if s.replay = .startup then .answered ⟨.starting, r.tag, []⟩
          else if r.request? = none then .answered ⟨.badRequest, r.tag, []⟩
          else .waiting } := by
  unfold State.deliver commonRefusal
  simp only [Option.isNone_iff_eq_none]
  by_cases hdisabled : s.isDisabled p = true
  · simp only [if_pos hdisabled]
  · by_cases hstarting : s.replay = .startup
    · simp only [if_neg hdisabled, if_pos hstarting]
    · by_cases hbad : r.request? = none
      · simp only [if_neg hdisabled, if_neg hstarting, if_pos hbad]
      · simp only [if_neg hdisabled, if_neg hstarting, if_neg hbad]

theorem State.setWindow_setWindow (s : State) (w : WindowPort) (x y : Window) :
    (s.setWindow w x).setWindow w y = s.setWindow w y := by
  simp only [State.setWindow, PerWindow.set_set]

theorem State.setWindow_get (s : State) (w : WindowPort) : s.setWindow w (s.window.get w) = s := by
  rw [State.setWindow, PerWindow.set_get]

theorem State.setWindow_window_get (s : State) (w : WindowPort) (x : Window) : (s.setWindow w x).window.get w = x :=
  PerWindow.get_set_self _ _ _

/-! ### The control codes -/

theorem windowPort_ne_port2 (w : WindowPort) : w.port ≠ .port2 := by cases w <;> decide

theorem State.setWindow_of_same {s t : State} {w : WindowPort} {x : Window} (ht : t.window = s.window)
    (hx : x = s.window.get w) : t.setWindow w x = t := by
  rw [hx, ← ht, State.setWindow_get]

theorem Window.eta_state {x : Window} {state : PortState} (h : x.state = state) : { x with state := state } = x := by
  rw [← h]

/-- GO taken: the record delivered, IDLE and ANSWERED to SUBMITTED, ANSWERED with TAKE's part (R161, R162). -/
theorem State.windowGo_taken {s : State} {w : WindowPort} (hstate : (s.window.get w).state ≠ .submitted)
    (hidle : (s.handler.get w.port).state = .idle) :
    s.windowGo w =
      (s.setHandler w.port
        { state := .executing, current := some (s.window.get w).record, abandoned := false, stored := none
          lastTag := (s.handler.get w.port).lastTag
          service :=
            if s.isDisabled w.port = true then .answered ⟨.disabled, (s.window.get w).record.tag, []⟩
            else if s.replay = .startup then .answered ⟨.starting, (s.window.get w).record.tag, []⟩
            else if (s.window.get w).record.request? = none then .answered ⟨.badRequest, (s.window.get w).record.tag, []⟩
            else .waiting }).setWindow w
        { s.window.get w with
          state := if (s.window.get w).state = .idle ∨ (s.window.get w).state = .answered then .submitted
            else (s.window.get w).state
          overrun := if (s.window.get w).state = .answered then 0 else (s.window.get w).overrun } := by
  have hbusy : (s.handler.get w.port).state ≠ .executing := by rw [hidle]; decide
  rw [State.windowGo, if_neg (not_or.mpr ⟨hstate, hbusy⟩), State.deliver_eq, if_neg (windowPort_ne_port2 w)]
  cases hx : (s.window.get w).state with
  | submitted => exact (hstate hx).elim
  | idle => rfl
  | answered => rfl
  | starting => exact (State.setWindow_of_same (t := s.setHandler w.port _) rfl (Window.eta_state hx)).symm
  | disabled => exact (State.setWindow_of_same (t := s.setHandler w.port _) rfl (Window.eta_state hx)).symm

theorem State.windowGo_ignored {s : State} {w : WindowPort}
    (h : (s.window.get w).state = .submitted ∨ (s.handler.get w.port).state = .executing) :
    s.windowGo w = s.setWindow w (s.window.get w).countOverrun := if_pos h

theorem Window.take_eq (x : Window) :
    x.take =
      { x with
        overrun := if x.state = .submitted then (if x.overrun < 255 then x.overrun + 1 else x.overrun) else 0
        state := if x.state = .answered then .idle else x.state } := by
  obtain ⟨_, state, _, _, _, _, _, _, _, _, _⟩ := x
  cases state <;> rfl

theorem State.softReset_eq (s : State) (p : Port) :
    s.softReset p = s.setHandler p
      (if (s.handler.get p).state = .idle then { s.handler.get p with stored := none }
       else { s.handler.get p with abandoned := true, stored := none }) := by
  unfold State.softReset
  cases hstate : (s.handler.get p).state with
  | idle => simp only [if_true]; rw [hstate]
  | executing => simp only [reduceCtorEq, if_false]; rw [hstate]

/-! ### Bytes written -/

theorem State.landByte_control (s : State) (w : WindowPort) (data : Byte) :
    s.landByte w 0x01 data =
      (s.controlCode w data).setWindow w (((s.controlCode w data).window.get w).afterWrite 0x01) := rfl

theorem Window.inSpiRead_iff (x : Window) : x.inSpiRead = true ↔ strapTransport x.strap = .spi ∧ x.spi = .reading := by
  rw [Window.inSpiRead, Bool.and_eq_true, decide_eq_true_eq, decide_eq_true_eq]

/-- A byte outside an SPI read lands at its offset (R159). -/
theorem State.windowWrite_of_write {s : State} {w : WindowPort}
    (h : strapTransport (s.window.get w).strap ≠ .spi ∨ (s.window.get w).spi ≠ .reading) (offset data : Byte) :
    s.windowWrite w offset data = (s.setWindow w ((s.window.get w).beforeWrite offset)).landByte w offset data := by
  refine if_neg fun hread => ?_
  obtain ⟨hspi, hreading⟩ := (Window.inSpiRead_iff _).mp hread
  exact h.elim (fun hne => hne hspi) fun hne => hne hreading

/-- Within an SPI read the port ignores what the master sends (R159). -/
theorem State.windowWrite_of_read {s : State} {w : WindowPort} (hspi : strapTransport (s.window.get w).strap = .spi)
    (hreading : (s.window.get w).spi = .reading) (offset data : Byte) :
    s.windowWrite w offset data = s.setWindow w (s.window.get w).readAtPointer :=
  if_pos ((Window.inSpiRead_iff _).mpr ⟨hspi, hreading⟩)

/-- A command that the part takes with RESET released. -/
theorem next_running {s : State} (hr : s.resetAsserted = false) (f : State → State) :
    (Host.Outcome.next (s.running f) : Host.Outcome State Fault Refusal) = .next (f s) :=
  congrArg Host.Outcome.next (if_neg (by rw [hr]; decide))

theorem Window.beforeWrite_eq (x : Window) (offset : Byte) :
    x.beforeWrite offset = if x.spi = .writing ∧ x.pointer ≠ offset then { x with spi := .deselected } else x := rfl

/-- A byte for another offset only opens another transaction: the rest of the window is as before. -/
theorem Window.beforeWrite_frame (x : Window) (offset : Byte) :
    x.beforeWrite offset = { x with spi := (x.beforeWrite offset).spi } := by
  rw [Window.beforeWrite_eq]
  split <;> rfl

theorem Window.beforeWrite_strap (x : Window) (offset : Byte) : (x.beforeWrite offset).strap = x.strap := by
  rw [Window.beforeWrite_frame]

/-! ### GO, TAKE, PORT_RESET and other codes -/

section
variable {s : State} {w : WindowPort} (hr : s.resetAsserted = false)
  (hwrite : strapTransport (s.window.get w).strap ≠ .spi ∨ (s.window.get w).spi ≠ .reading)
include hr hwrite

/-- A byte the master writes outside an SPI read. -/
theorem next_windowWrite (offset data : Byte) :
    (Host.Outcome.next (s.running fun s => (s.windowWrite w offset data).settle) :
        Host.Outcome State Fault Refusal) =
      .next ((s.setWindow w ((s.window.get w).beforeWrite offset)).landByte w offset data).settle := by
  refine (next_running hr _).trans ?_
  rw [State.windowWrite_of_write hwrite]

/-- A control code: what it does, then the pointer past its byte. -/
theorem next_controlCode {code : Byte} {t : State} {y : Window}
    (h : (s.setWindow w ((s.window.get w).beforeWrite 0x01)).controlCode w code = t.setWindow w y) :
    (Host.Outcome.next (s.running fun s => (s.windowWrite w 0x01 code).settle) : Host.Outcome State Fault Refusal) =
      .next (t.setWindow w (y.afterWrite 0x01)).settle := by
  rw [next_windowWrite hr hwrite, State.landByte_control, h, State.setWindow_window_get, State.setWindow_setWindow]

end

/-- Settles O53: the byte lands in PORT_CONTROL, where GO is taken or ignored. -/
theorem goTaken : Obligations.GoTaken := by
  intro s w hr x h length record hwrite
  have hwrite' : strapTransport (s.window.get w).strap ≠ .spi ∨ (s.window.get w).spi ≠ .reading := by
    rwa [← Window.beforeWrite_strap _ 0x01]
  have hx : (s.setWindow w x).window.get w = x := s.setWindow_window_get w x
  refine ⟨fun hstate hidle => next_controlCode hr hwrite' ?_, fun hignored => next_controlCode hr hwrite' ?_⟩
  · have hgo := State.windowGo_taken (s := s.setWindow w x) (w := w) (by rwa [hx]) hidle
    rw [hx] at hgo
    exact hgo.trans (State.setWindow_setWindow (s.setHandler w.port _) w x _)
  · have hgo := State.windowGo_ignored (s := s.setWindow w x) (w := w) (by rwa [hx])
    rw [hx] at hgo
    exact hgo.trans (State.setWindow_setWindow s w x _)

/-- A session end reads and leaves no window. -/
theorem State.endSession_setWindow (s : State) (w : WindowPort) (x : Window) (p : Port) :
    (s.setWindow w x).endSession p = (s.endSession p).setWindow w x := by
  cases hopen : (s.session.get p).isOpen with
  | false => rw [State.endSession_of_closed hopen, State.endSession_of_closed (s := s.setWindow w x) hopen]
  | true =>
    rw [State.endSession_of_open hopen, State.endSession_of_open (s := s.setWindow w x) hopen]
    rfl

theorem State.endSession_handler (s : State) (p : Port) : (s.endSession p).handler = s.handler := by
  obtain ⟨_, e⟩ := State.endSession_frame s p
  rw [e]

/-- PORT_RESET: the window's own part, the session end, the handler's soft reset (R164). -/
theorem State.windowReset_eq (s : State) (w : WindowPort) :
    s.windowReset w =
      ((s.endSession w.port).setHandler w.port
        (if (s.handler.get w.port).state = .idle then { s.handler.get w.port with stored := none }
         else { s.handler.get w.port with abandoned := true, stored := none })).setWindow w
        (s.window.get w).portReset := by
  rw [State.windowReset, State.endSession_setWindow, State.softReset_eq, State.setWindow_handler,
    State.endSession_handler]
  rfl

/-- Settles O54: the byte lands in PORT_CONTROL, where each code does its part. -/
theorem controlCodesTaken : Obligations.ControlCodesTaken := by
  intro s w hr x overrun closed h hwrite
  have hwrite' : strapTransport (s.window.get w).strap ≠ .spi ∨ (s.window.get w).spi ≠ .reading := by
    rwa [← Window.beforeWrite_strap _ 0x01]
  have hx : (s.setWindow w x).window.get w = x := s.setWindow_window_get w x
  refine ⟨next_controlCode hr hwrite' ?_, next_controlCode hr hwrite' ?_,
    fun code hgo htake hreset => next_controlCode hr hwrite' ?_⟩
  · have htake : (s.setWindow w x).controlCode w 0xA2 = (s.setWindow w x).setWindow w
        ((s.setWindow w x).window.get w).take := rfl
    rw [hx, Window.take_eq] at htake
    exact htake.trans (State.setWindow_setWindow s w x _)
  · have hreset := State.windowReset_eq (s.setWindow w x) w
    rw [hx, State.endSession_setWindow] at hreset
    exact hreset.trans (State.setWindow_setWindow (State.setHandler closed w.port _) w x _)
  · have hother : (s.setWindow w x).controlCode w code = (s.setWindow w x).setWindow w
        ((s.setWindow w x).window.get w).countOverrun := by
      rw [State.controlCode, if_neg hgo, if_neg htake, if_neg hreset]
    rw [hx] at hother
    exact hother.trans (State.setWindow_setWindow s w x _)

/-! ### The other bytes of the map -/

/-- A byte that lands in the request area (R161). -/
theorem State.landByte_area (s : State) (w : WindowPort) {offset : Byte} (hlow : 0x10 ≤ offset.toNat)
    (hhigh : offset.toNat ≤ 0x4F) (data : Byte) :
    s.landByte w offset data =
      s.setWindow w (((s.window.get w).writeRequest offset.toNat data).afterWrite offset) := by
  have hcontrol : offset ≠ 0x01 := fun h => by rw [h] at hlow; exact absurd hlow (by decide)
  have henable : offset ≠ 0x02 := fun h => by rw [h] at hlow; exact absurd hlow (by decide)
  unfold State.landByte
  rw [if_neg hcontrol, if_neg henable, if_pos ⟨hlow, hhigh⟩]
  dsimp only
  rw [State.setWindow_window_get, State.setWindow_setWindow]

theorem State.landByte_attnEnable (s : State) (w : WindowPort) (data : Byte) :
    s.landByte w 0x02 data =
      s.setWindow w (Window.afterWrite { s.window.get w with attnEnable := data &&& 0x03 } 0x02) := by
  unfold State.landByte
  rw [if_neg (by decide), if_pos rfl]
  dsimp only
  rw [State.setWindow_window_get, State.setWindow_setWindow]

theorem State.landByte_elsewhere (s : State) (w : WindowPort) {offset : Byte} (hcontrol : offset ≠ 0x01)
    (henable : offset ≠ 0x02) (harea : offset.toNat < 0x10 ∨ 0x4F < offset.toNat) (data : Byte) :
    s.landByte w offset data = s.setWindow w ((s.window.get w).afterWrite offset) := by
  unfold State.landByte
  rw [if_neg hcontrol, if_neg henable, if_neg (by omega)]

theorem Window.writeRequest_beforeWrite (x : Window) (offset data : Byte) (n : Nat) :
    (x.beforeWrite offset).writeRequest n data =
      if x.state = .submitted then
        { x.beforeWrite offset with overrun := if x.overrun < 255 then x.overrun + 1 else x.overrun }
      else { x.beforeWrite offset with requestArea := x.requestArea.set (n - 0x10) data } := by
  by_cases hother : x.spi = .writing ∧ x.pointer ≠ offset
  · rw [Window.beforeWrite_eq, if_pos hother]
    rfl
  · rw [Window.beforeWrite_eq, if_neg hother]
    rfl

theorem Window.endByte_of_phase (x : Window) :
    x.endByte =
      if x.spi = .deselected then x
      else
        match x.csRises with
        | [] => x
        | rises :: rest => { x with csRises := rest, spi := if rises then .deselected else x.spi } := by
  unfold Window.endByte
  cases hspi : x.spi with
  | deselected => rfl
  | writing =>
    cases x.csRises with
    | nil => rfl
    | cons rises rest => cases rises <;> rfl
  | reading =>
    cases x.csRises with
    | nil => rfl
    | cons rises rest => cases rises <;> rfl

/-- Table 9-1 at the pointer. -/
theorem Window.readAtPointer_eq (x : Window) :
    x.readAtPointer =
      Window.endByte
        { x with
          pointer := x.pointer + 1
          busOut := some
            (if x.pointer = 0x00 then x.state.code
             else if x.pointer = 0x02 then x.attnEnable
             else if x.pointer = 0x03 then BitVec.ofNat 8 x.overrun
             else if 0x10 ≤ x.pointer.toNat ∧ x.pointer.toNat ≤ 0x4F then
               x.requestArea.getD (x.pointer.toNat - 0x10) 0
             else if 0x50 ≤ x.pointer.toNat ∧ x.pointer.toNat ≤ 0x8F then
               x.responseArea.getD (x.pointer.toNat - 0x50) 0
             else 0) } := by
  have hzero : x.pointer.toNat = 0x00 ↔ x.pointer = 0x00 := BitVec.toNat_inj (y := 0x00)
  have hattn : x.pointer.toNat = 0x02 ↔ x.pointer = 0x02 := BitVec.toNat_inj (y := 0x02)
  have hoverrun : x.pointer.toNat = 0x03 ↔ x.pointer = 0x03 := BitVec.toNat_inj (y := 0x03)
  simp only [Window.readAtPointer, Window.readByte, byteOf, hzero, hattn, hoverrun]

theorem Window.clockOut_of_spi_reading {x : Window} (hspi : strapTransport x.strap = .spi) (hphase : x.spi = .reading) :
    x.clockOut = x.readAtPointer := by
  rw [Window.clockOut, hspi, hphase]

theorem Window.clockOut_of_i2c {x : Window} (hspi : strapTransport x.strap ≠ .spi) : x.clockOut = x.readAtPointer := by
  unfold Window.clockOut
  cases hstrap : strapTransport x.strap with
  | spi => exact (hspi hstrap).elim
  | i2c address => rfl

theorem Window.clockOut_of_writing {x : Window} (hspi : strapTransport x.strap = .spi) (hphase : x.spi = .writing) :
    x.clockOut = { x with busOut := some 0 } := by
  rw [Window.clockOut, hspi, hphase]

theorem Window.clockOut_of_deselected {x : Window} (hspi : strapTransport x.strap = .spi)
    (hphase : x.spi = .deselected) : x.clockOut = x := by
  rw [Window.clockOut, hspi, hphase]

theorem Window.setPointer_of_spi {x : Window} (hspi : strapTransport x.strap = .spi) (b : Byte) :
    x.setPointer b =
      Window.endByte
        { x with
          pointer := b &&& 0x7F, busOut := some 0
          spi := if b.toNat < 0x80 then .writing else .reading } := by
  have hbit : b.getLsbD 7 = true ↔ ¬b.toNat < 0x80 := by
    have hlt := b.isLt
    rw [← BitVec.testBit_toNat, Nat.testBit_eq_decide_div_mod_eq, decide_eq_true_eq]
    omega
  rw [Window.setPointer, hspi]
  simp only [hbit, ite_not]

theorem Window.setPointer_of_i2c {x : Window} (hspi : strapTransport x.strap ≠ .spi) (b : Byte) :
    x.setPointer b = { x with pointer := b } := by
  unfold Window.setPointer
  cases hstrap : strapTransport x.strap with
  | spi => exact (hspi hstrap).elim
  | i2c address => rfl

/-- A byte that the master sends or clocks within an SPI read: the byte at the pointer (R159). -/
theorem exec_of_spi_read {s : State} {w : WindowPort} (hr : s.resetAsserted = false)
    (hspi : strapTransport (s.window.get w).strap = .spi) (hreading : (s.window.get w).spi = .reading)
    {c : Instr} {offset data : Byte}
    (hc : c ∈ [Instr.go w, .take w, .portReset w, .unknownControlCode w data, .requestAreaWrite w offset data,
      .attnEnableWrite w data, .windowWriteIgnored w offset data, .windowByteRead w]) :
    exec c s = .next (s.setWindow w (s.window.get w).readAtPointer).settle := by
  have hwritten : ∀ offset data : Byte,
      (Host.Outcome.next (s.running fun s => (s.windowWrite w offset data).settle) :
        Host.Outcome State Fault Refusal) = .next (s.setWindow w (s.window.get w).readAtPointer).settle :=
    fun offset data => by
      refine (next_running hr _).trans ?_
      rw [State.windowWrite_of_read hspi hreading]
  simp only [List.mem_cons, List.not_mem_nil, or_false] at hc
  obtain rfl | rfl | rfl | rfl | rfl | rfl | rfl | rfl := hc
  · exact hwritten 0x01 0xA1
  · exact hwritten 0x01 0xA2
  · exact hwritten 0x01 0xA7
  · exact hwritten 0x01 data
  · exact hwritten offset data
  · exact hwritten 0x02 data
  · exact hwritten offset data
  · refine (next_running hr _).trans ?_
    rw [Window.clockOut_of_spi_reading hspi hreading]

/-- Settles O55: each byte by where it lands or what it clocks out. -/
theorem windowBytes : Obligations.WindowBytes := by
  refine ⟨⟨rfl, rfl⟩, ⟨Window.endByte_of_phase, fun _ => rfl, Window.beforeWrite_eq, fun _ _ => rfl⟩, fun s w hr => ?_⟩
  intro x spi read
  have hread : s.setWindow w x.readAtPointer = read := by rw [Window.readAtPointer_eq]
  refine ⟨?_, fun hspi hreading c offset data hc => ?_, fun b => ⟨fun hspi => ?_, fun hspi => ?_⟩, fun hspi => ?_,
    fun hspi hwriting => ?_, fun hspi hdeselected => ?_⟩
  · intro offset data hwrite y
    have hlands := next_windowWrite hr hwrite offset data
    refine ⟨fun hlow hhigh => ?_, fun henable => ?_, fun hcontrol henable harea => ?_⟩
    · rw [State.landByte_area _ w hlow hhigh, State.setWindow_window_get, State.setWindow_setWindow,
        Window.writeRequest_beforeWrite] at hlands
      exact hlands
    · subst henable
      rw [State.landByte_attnEnable, State.setWindow_window_get, State.setWindow_setWindow] at hlands
      exact hlands
    · rw [State.landByte_elsewhere _ w hcontrol henable harea, State.setWindow_window_get,
        State.setWindow_setWindow] at hlands
      exact hlands
  · rw [exec_of_spi_read hr hspi hreading hc, hread]
  · refine (next_running hr _).trans ?_
    rw [Window.setPointer_of_spi hspi]
  · refine (next_running hr _).trans ?_
    rw [Window.setPointer_of_i2c hspi]
  · refine (next_running hr _).trans ?_
    rw [Window.clockOut_of_i2c hspi, hread]
  · refine (next_running hr _).trans ?_
    rw [Window.clockOut_of_writing hspi hwriting]
  · refine (next_running hr _).trans ?_
    rw [Window.clockOut_of_deselected hspi hdeselected, State.setWindow_get]

end Sys2Proof.Machine
end

section
/-! PROOF. How a request record is delivered at a window and at port 2, and what becomes of one that no block takes
(R144, R147, R148, R162). -/

namespace Sys2Proof.Machine

/-! ### A record's bytes in the request area -/

theorem Window.endByte_of_deselected {x : Window} (h : x.spi = .deselected) : x.endByte = x := by
  rw [Window.endByte_of_phase, if_pos h]

/-- What a byte written leaves on the line to the master: 00h on SPI, nothing on I2C (R158, R159). -/
def Window.driven (x : Window) (busOut : Option Byte) : Option Byte :=
  if strapTransport x.strap = .spi then some 0 else busOut

theorem Window.driven_driven (x : Window) (busOut : Option Byte) : x.driven (x.driven busOut) = x.driven busOut := by
  unfold Window.driven
  split <;> rfl

theorem Window.afterWrite_of_deselected {x : Window} (h : x.spi = .deselected) (offset : Byte) :
    x.afterWrite offset = { x with pointer := offset + 1, busOut := x.driven x.busOut } :=
  Window.endByte_of_deselected (x := { x with pointer := offset + 1, busOut := x.driven x.busOut }) h

theorem byte_toNat_succ {offset : Byte} (h : offset.toNat < 255) : (offset + 1).toNat = offset.toNat + 1 := by
  rw [BitVec.toNat_add]
  exact Nat.mod_eq_of_lt (by show _ + 1 < 256; omega)

theorem set_take_succ {α : Type} {l : List α} {k : Nat} (hk : k < l.length) (b : α) : (l.set k b).take (k + 1) = l.take k ++ [b] := by
  rw [List.take_add_one, List.take_set_of_le (Nat.le_refl k), List.getElem?_set_self hk]
  rfl

/-- The window with bytes written into its request area, the pointer past them and the line as they left it. -/
def Window.written (x : Window) (area : Bytes) (pointer : Byte) (busOut : Option Byte) : Window :=
  { x with requestArea := area, pointer := pointer, busOut := busOut }

theorem Window.afterWrite_writeRequest {x : Window} (hstate : x.state ≠ .submitted) (hphase : x.spi = .deselected)
    (offset data : Byte) :
    (x.writeRequest offset.toNat data).afterWrite offset =
      x.written (x.requestArea.set (offset.toNat - 0x10) data) (offset + 1) (x.driven x.busOut) := by
  rw [Window.writeRequest, if_neg hstate]
  exact Window.afterWrite_of_deselected
    (x := { x with requestArea := x.requestArea.set (offset.toNat - 0x10) data }) hphase offset

/-- Bytes that land in the request area one after another, outside SUBMITTED and with no transaction open. -/
theorem State.landBytes_taken (w : WindowPort) (bytes : Bytes) {s : State} {x : Window} {offset : Byte} {k : Nat}
    (hx : s.window.get w = x) (hoffset : offset.toNat = 0x10 + k) (hfits : k + bytes.length ≤ 64)
    (hsize : x.requestArea.length = 64) (hstate : x.state ≠ .submitted) (hphase : x.spi = .deselected) :
    ∃ pointer busOut, x.driven busOut = x.driven x.busOut ∧
      s.landBytes w offset bytes = s.setWindow w
        (x.written (x.requestArea.take k ++ bytes ++ x.requestArea.drop (k + bytes.length)) pointer busOut) := by
  induction bytes generalizing s x offset k with
  | nil =>
    refine ⟨x.pointer, x.busOut, rfl, ?_⟩
    rw [List.append_nil, List.length_nil, Nat.add_zero, List.take_append_drop]
    exact (State.setWindow_of_same rfl hx.symm).symm
  | cons b rest ih =>
    rw [List.length_cons] at hfits ⊢
    have hone : s.landByte w offset b =
        s.setWindow w (x.written (x.requestArea.set k b) (offset + 1) (x.driven x.busOut)) := by
      rw [State.landByte_area s w (by omega) (by omega), hx, Window.afterWrite_writeRequest hstate hphase, hoffset,
        Nat.add_sub_cancel_left]
    obtain ⟨pointer, busOut, hdriven, hrest⟩ := ih
      (s := s.setWindow w (x.written (x.requestArea.set k b) (offset + 1) (x.driven x.busOut)))
      (offset := offset + 1) (k := k + 1) (State.setWindow_window_get _ _ _)
      (by rw [byte_toNat_succ (by omega), hoffset, Nat.add_assoc]) (by omega)
      ((List.length_set).trans hsize) hstate hphase
    have harea : (x.requestArea.set k b).take (k + 1) ++ rest ++ (x.requestArea.set k b).drop (k + 1 + rest.length) =
        x.requestArea.take k ++ (b :: rest) ++ x.requestArea.drop (k + (rest.length + 1)) := by
      rw [set_take_succ (by omega), List.drop_set_of_lt (by omega), List.append_assoc (x.requestArea.take k),
        List.singleton_append, Nat.add_assoc, Nat.add_comm 1]
    refine ⟨pointer, busOut, hdriven.trans (x.driven_driven _), ?_⟩
    rw [State.landBytes, hone, hrest, State.setWindow_setWindow]
    exact congrArg (fun area => s.setWindow w (x.written area pointer busOut)) harea

/-- In SUBMITTED, and whatever the state, the bytes of a record touch the window alone; in SUBMITTED they leave its
state and its request area (R161). -/
theorem State.landBytes_window (w : WindowPort) (bytes : Bytes) {s : State} {offset : Byte}
    (hlow : 0x10 ≤ offset.toNat) (hfits : offset.toNat + bytes.length ≤ 0x50) :
    ∃ y, s.landBytes w offset bytes = s.setWindow w y ∧
      ((s.window.get w).state = .submitted →
        y.state = .submitted ∧ y.requestArea = (s.window.get w).requestArea) := by
  induction bytes generalizing s offset with
  | nil => exact ⟨_, (s.setWindow_get w).symm, fun h => ⟨h, rfl⟩⟩
  | cons b rest ih =>
    rw [List.length_cons] at hfits
    have hone := s.landByte_area w hlow (by omega) b
    obtain ⟨y, hrest, hy⟩ := ih (s := s.setWindow w (((s.window.get w).writeRequest offset.toNat b).afterWrite offset))
      (offset := offset + 1) (by rw [byte_toNat_succ (by omega)]; omega) (by rw [byte_toNat_succ (by omega)]; omega)
    refine ⟨y, by rw [State.landBytes, hone, hrest, State.setWindow_setWindow], fun hsubmitted => ?_⟩
    have hkept : (((s.window.get w).writeRequest offset.toNat b).afterWrite offset).state = .submitted ∧
        (((s.window.get w).writeRequest offset.toNat b).afterWrite offset).requestArea = (s.window.get w).requestArea := by
      rw [Window.afterWrite, Window.endByte_eq, Window.writeRequest, if_pos hsubmitted]
      exact ⟨hsubmitted, rfl⟩
    rw [State.setWindow_window_get] at hy
    obtain ⟨hstate, harea⟩ := hy hkept.1
    exact ⟨hstate, harea.trans hkept.2⟩

/-! ### The submission at a window -/

theorem Record.bytes_length (r : Record) : r.bytes.length = r.args.length + 3 := rfl

/-- A record whose bytes stand in the request area is the record that GO delivers (R162). -/
theorem Window.record_of_area {x : Window} {r : Record} {rest : Bytes} (harea : x.requestArea = r.bytes ++ rest)
    (hlength : r.argLength = r.args.length) (hfits : r.args.length ≤ 60) : x.record = r := by
  have hbyte : (x.requestArea.getD 2 0).toNat = r.argLength := by
    rw [harea]
    show (BitVec.ofNat 8 r.argLength).toNat = _
    rw [hlength]
    exact lengthByte_toNat (by omega)
  have hargs : (x.requestArea.drop 3).take (min r.argLength Config.maxArgs) = r.args := by
    rw [harea, hlength, Nat.min_eq_left hfits]
    exact List.take_left
  have hkind : x.requestArea.getD 0 0 = r.kind := by rw [harea]; rfl
  have htag : x.requestArea.getD 1 0 = r.tag := by rw [harea]; rfl
  unfold Window.record
  dsimp only
  rw [hbyte, hargs, hkind, htag]

theorem State.submitOnce_window {s : State} {w : WindowPort} {r : Record} (h : s.awaits w.port r = false) :
    s.submitOnce w.port r = s.submitToWindow w r := by
  rw [State.submitOnce, if_neg (by rw [h]; decide), State.submit, windowOf_port]

/-- A record taken by an idle handler (R144, R161, R162). -/
theorem State.submitToWindow_taken {s : State} {w : WindowPort} {r : Record}
    (hsize : (s.window.get w).requestArea.length = 64) (hlength : r.argLength = r.args.length)
    (hfits : r.args.length ≤ 60) (hstate : (s.window.get w).state ≠ .submitted)
    (hidle : (s.handler.get w.port).state = .idle) :
    s.submitToWindow w r =
      (s.setHandler w.port
        { state := .executing, current := some r, abandoned := false, stored := none
          lastTag := (s.handler.get w.port).lastTag
          service :=
            if s.isDisabled w.port = true then .answered ⟨.disabled, r.tag, []⟩
            else if s.replay = .startup then .answered ⟨.starting, r.tag, []⟩
            else if r.request? = none then .answered ⟨.badRequest, r.tag, []⟩
            else .waiting }).setWindow w
        { s.window.get w with
          requestArea := r.bytes ++ (s.window.get w).requestArea.drop (r.args.length + 3)
          state := if (s.window.get w).state = .idle ∨ (s.window.get w).state = .answered then .submitted
            else (s.window.get w).state
          overrun := if (s.window.get w).state = .answered then 0 else (s.window.get w).overrun
          pointer := 0x02
          spi := .deselected
          busOut := (s.window.get w).driven (s.window.get w).busOut } := by
  obtain ⟨pointer, busOut, hdriven, hland⟩ := State.landBytes_taken w r.bytes
    (s := s.setWindow w (s.window.get w).deselect) (x := (s.window.get w).deselect) (offset := 0x10) (k := 0)
    (State.setWindow_window_get _ _ _) rfl (by rw [Record.bytes_length]; omega) hsize hstate rfl
  rw [List.take_zero, List.nil_append, Nat.zero_add, Record.bytes_length, State.setWindow_setWindow] at hland
  generalize hy : (s.window.get w).deselect.written
    (r.bytes ++ (s.window.get w).deselect.requestArea.drop (r.args.length + 3)) pointer busOut = y at hland
  have harea : y.requestArea = r.bytes ++ (s.window.get w).requestArea.drop (r.args.length + 3) := by rw [← hy]; rfl
  have hrecord : y.record = r := Window.record_of_area harea hlength hfits
  have hphase : y.spi = .deselected := by rw [← hy]; rfl
  have hgo := State.windowGo_taken (s := s.setWindow w y) (w := w)
    (by rw [State.setWindow_window_get, ← hy]; exact hstate) hidle
  rw [State.setWindow_window_get, hrecord] at hgo
  rw [State.submitToWindow, hland, State.landByte_control,
    show (s.setWindow w y).controlCode w 0xA1 = (s.setWindow w y).windowGo w from rfl, hgo,
    State.setWindow_window_get, State.setWindow_setWindow]
  rw [Window.afterWrite_of_deselected (by exact hphase)]
  refine (State.setWindow_setWindow (s.setHandler w.port _) w _ _).trans ?_
  subst hy
  have hline : (s.window.get w).driven busOut = (s.window.get w).driven (s.window.get w).busOut := hdriven
  rw [← hline]
  rfl

/-- A record turned away: in SUBMITTED, or with another record EXECUTING, GO is ignored (R161). -/
theorem State.submitToWindow_ignored {s : State} {w : WindowPort} {r : Record} (hfits : r.args.length ≤ 60)
    (h : (s.window.get w).state = .submitted ∨ (s.handler.get w.port).state = .executing) :
    (s.submitToWindow w r).handler = s.handler ∧
      ((s.window.get w).state = .submitted →
        ((s.submitToWindow w r).window.get w).requestArea = (s.window.get w).requestArea) := by
  obtain ⟨y, hland, hy⟩ := State.landBytes_window w r.bytes (s := s.setWindow w (s.window.get w).deselect)
    (offset := 0x10) (Nat.le_refl _) (by show 16 + _ ≤ 80; rw [Record.bytes_length]; omega)
  rw [State.setWindow_setWindow] at hland
  rw [State.setWindow_window_get] at hy
  have hgo : (s.setWindow w y).windowGo w = s.setWindow w y.countOverrun := by
    rw [State.windowGo_ignored, State.setWindow_window_get, State.setWindow_setWindow]
    rw [State.setWindow_window_get]
    exact h.imp (fun hsubmitted => (hy hsubmitted).1) id
  have hsubmit : s.submitToWindow w r = s.setWindow w (y.countOverrun.afterWrite 0x01) := by
    rw [State.submitToWindow, hland, State.landByte_control,
      show (s.setWindow w y).controlCode w 0xA1 = (s.setWindow w y).windowGo w from rfl, hgo,
      State.setWindow_window_get, State.setWindow_setWindow]
  rw [hsubmit, State.setWindow_window_get, Window.afterWrite, Window.endByte_eq]
  exact ⟨rfl, fun hsubmitted => (hy hsubmitted).2⟩

/-! ### A record that no block takes -/

theorem State.awaits_of_idle {s : State} {p : Port} (h : (s.handler.get p).state = .idle) (r : Record) :
    s.awaits p r = false := by
  rw [State.awaits, h]
  rfl

theorem State.awaits_of_answered {s : State} {p : Port} {answer : Response}
    (h : (s.handler.get p).service = .answered answer) (r : Record) : s.awaits p r = false := by
  rw [State.awaits, h]
  exact Bool.and_false _

theorem execRequest_of_not_awaits {s : State} {p : Port} {r : Record} (hr : s.resetAsserted = false)
    (h : (s.submitOnce p r).awaits p r = false) : execRequest p r s = .next (s.submitOnce p r).settle := by
  refine (next_running hr _).trans ?_
  rw [State.request, State.carryOnce, if_neg (by rw [h]; decide)]

/-- A kind code that names no request makes a malformed record (R148). -/
theorem request?_of_unknownKind {kind : Byte} (h : (requestKind? kind).isNone = true) (tag : Byte) (args : Bytes) :
    (Record.make kind tag args).request? = none := by
  have hkind : requestKind? (Record.make kind tag args).kind = none := Option.isNone_iff_eq_none.mp h
  unfold Record.request?
  rw [hkind]
  split <;> rfl

/-- A malformed record is not carried to a block. -/
theorem State.carryOnce_of_malformed {s : State} {p : Port} {r : Record} (h : r.request? = none) :
    s.carryOnce p r = s := by
  unfold State.carryOnce
  split
  next hawaits =>
    simp only [State.awaits, Bool.and_eq_true, decide_eq_true_eq] at hawaits
    obtain ⟨⟨-, hcurrent⟩, -⟩ := hawaits
    rw [State.carryCurrent, hcurrent]
    dsimp only
    rw [h]
  next => rfl

/-- Settles O35: the submission at a window taken or turned away, then the records that reach no block. -/
theorem requestsDelivered : Obligations.RequestsDelivered := by
  refine ⟨?_, fun s p r hr _ => execRequest_of_not_awaits hr,
    fun tag kind args hkind => request?_of_unknownKind hkind tag args, fun s tag kind args hkind hawaits => ?_, ?_⟩
  · intro s w r p x h hsize hlength hfits hawaits
    have hsubmit : s.submitOnce p r = s.submitToWindow w r := State.submitOnce_window hawaits
    refine ⟨fun hstate hidle => ?_, fun hsubmitted => ?_, fun hexecuting => ?_⟩
    · exact hsubmit.trans (State.submitToWindow_taken hsize hlength hfits hstate hidle)
    · obtain ⟨hhandler, harea⟩ := State.submitToWindow_ignored hfits (.inl hsubmitted)
      rw [hsubmit]
      exact ⟨hhandler, harea hsubmitted⟩
    · rw [hsubmit]
      exact (State.submitToWindow_ignored hfits (.inr hexecuting)).1
  · have hmalformed := request?_of_unknownKind hkind tag args
    have hsame : s.request .port2 (Record.make kind tag args) = s.receiveWhole .req tag kind args := by
      rw [State.request, State.carryOnce_of_malformed hmalformed, State.submitOnce, if_neg (by rw [hawaits]; decide)]
      rfl
    exact congrArg (fun t : State => Host.Outcome.next (if s.resetAsserted then s else t.settle)) hsame
  · intro s w tag kind args hkind hfits hr hsize hstate hidle hawake henabled
    have hmalformed := request?_of_unknownKind hkind tag args
    have htaken := State.submitToWindow_taken (r := Record.make kind tag args) hsize rfl hfits
      (by rw [hstate]; decide) hidle
    rw [← State.submitOnce_window (State.awaits_of_idle hidle _), if_neg (by rw [henabled]; decide), if_neg hawake,
      if_pos hmalformed, hstate, if_pos (.inl rfl), if_neg (by decide)] at htaken
    refine (execRequest_of_not_awaits hr ?_).trans (congrArg (fun t : State => Host.Outcome.next t.settle) htaken)
    rw [htaken]
    exact State.awaits_of_answered (answer := ⟨.badRequest, tag, []⟩)
      (congrArg Handler.service (PerPort.get_set_self _ _ _)) _

end Sys2Proof.Machine
end

section
/-! PROOF. The answer handed over: at a window, on the link, or to none (R145, R146, R162, R172); and JOURNAL_READ,
answered at once or held (R45). -/

namespace Sys2Proof.Machine

/-! ### Settling again -/

/-- The window without its ATTN line, which `settle` alone writes (R165). -/
def Window.unlit (x : Window) : Window := { x with attn := false }

/-- Windows that differ in their ATTN lines alone, and links that settle alike, end alike. -/
theorem State.settle_of_lines {s : State} {l : Link} {y : PerWindow Window}
    (hwindow : ∀ w, (y.get w).unlit = (s.window.get w).unlit)
    (hlink : ({ s with link := l, window := y } : State).settleLink.link = s.settleLink.link) :
    ({ s with link := l, window := y } : State).settle = s.settle := by
  have hholds : ∀ w, ({ s with link := l, window := y } : State).attnHolds w = s.attnHolds w := fun w => by
    have henable : (y.get w).attnEnable = (s.window.get w).attnEnable := (congrArg Window.attnEnable (hwindow w) :)
    have hstate : (y.get w).state = (s.window.get w).state := (congrArg Window.state (hwindow w) :)
    simp only [State.attnHolds, henable, hstate]
  have hlit : ∀ w (b : Bool), { y.get w with attn := b } = { s.window.get w with attn := b } := fun w b =>
    congrArg (fun x : Window => { x with attn := b }) (hwindow w)
  rw [State.settleLink_link, State.settleLink_link] at hlink
  rw [State.settle_eq, State.settle_eq, hholds, hholds]
  dsimp only at hlink ⊢
  rw [hlink, show y.window0 = y.get .window0 from rfl, show y.window1 = y.get .window1 from rfl, hlit, hlit]
  rfl

theorem State.unlit_settle (s : State) (w : WindowPort) : (s.settle.window.get w).unlit = (s.window.get w).unlit := by
  rw [State.settle_eq]
  cases w <;> rfl

theorem State.settle_link (s : State) : s.settle.link = s.settleLink.link := rfl

theorem State.settleLink_congr {s t : State} (hlink : t.link = s.link) (hsession : t.session = s.session) :
    t.settleLink.link = s.settleLink.link := by
  have hsends : t.sendable = s.sendable := by simp only [State.sendable, State.noteReady, hlink, hsession]
  rw [State.settleLink_link, State.settleLink_link, hlink, hsends]

/-- A link that has settled stays so while no other frame becomes sendable. -/
theorem State.settleLink_settled {s t : State} (hlink : t.link = s.settleLink.link)
    (hsession : t.session = s.session) : t.settleLink.link = s.settleLink.link := by
  by_cases hturns : s.link.state = .idle ∧ s.sendable = true
  · rw [State.settleLink_link, hlink, State.settleLink_link, if_pos hturns, if_neg nofun]
  · rw [State.settleLink_link s, if_neg hturns] at hlink
    exact State.settleLink_congr hlink hsession

theorem State.settle_settle (s : State) : s.settle.settle = s.settle := by
  have hsame : s.settle = { s with link := s.settle.link, window := s.settle.window } := by rw [State.settle_eq]
  have hlink := State.settleLink_settled (s := s) (t := { s with link := s.settle.link, window := s.settle.window })
    rfl rfl
  exact (congrArg State.settle hsame).trans (State.settle_of_lines s.unlit_settle hlink)

theorem State.settle_handler (s : State) : s.settle.handler = s.handler := by rw [State.settle_eq]

/-! ### The hand-over -/

theorem State.handOver_window (s : State) (w : WindowPort) (r : Response) :
    s.handOver w.port r =
      (s.setHandler w.port ((s.handler.get w.port).finished none)).setWindow w
        (if (s.handler.get w.port).abandoned = true then (s.window.get w).endAbandoned
         else (s.window.get w).takeAnswer r) := by
  unfold State.handOver
  rw [windowOf_port]
  dsimp only
  split <;> rfl

theorem State.handOver_port2 (s : State) (r : Response) :
    s.handOver .port2 r =
      if (s.handler.get .port2).abandoned = true then s.setHandler .port2 ((s.handler.get .port2).finished none)
      else (s.setHandler .port2 ((s.handler.get .port2).finished (some r))).setLink s.link.takeAnswer := rfl

theorem Link.takeAnswer_eq (l : Link) :
    l.takeAnswer = { l with pending := if l.state = .off then l.pending else some .response } := by
  unfold Link.takeAnswer
  split <;> rfl

/-- An answer pending on a link that has settled is the one pending on the link before. -/
theorem State.settleLink_takeAnswer {s t u : State} (ht : t.link = s.settleLink.link.takeAnswer)
    (hu : u.link = s.link.takeAnswer) (hsession : t.session = u.session) :
    t.settleLink.link = u.settleLink.link := by
  by_cases hturns : s.link.state = .idle ∧ s.sendable = true
  · have hpends : u.link = { s.link with pending := some .response } := by
      rw [hu, Link.takeAnswer, if_neg (by rw [hturns.1]; exact nofun)]
    have hsends : u.sendable = true := by rw [State.sendable, hpends]; rfl
    rw [State.settleLink_link, ht, State.settleLink_link, if_pos hturns, if_neg (by exact nofun),
      State.settleLink_link, hsends, hpends, if_pos ⟨hturns.1, rfl⟩, Link.takeAnswer, if_neg (by exact nofun)]
  · rw [State.settleLink_link s, if_neg hturns] at ht
    exact State.settleLink_congr (ht.trans hu.symm) hsession

/-- The hand-over writes the handler, its window and the link; what `settle` wrote before it stands in no other. -/
theorem State.handOver_settled_eq (s : State) (p : Port) (r : Response) :
    s.settle.handOver p r =
      { s.handOver p r with
        link := (s.settle.handOver p r).link, window := (s.settle.handOver p r).window } := by
  rw [State.settle_eq]
  unfold State.handOver
  dsimp only
  cases windowOf p <;> dsimp only <;> split <;> rfl

theorem window_or_link (p : Port) : (∃ w : WindowPort, p = w.port) ∨ p = .port2 := by
  cases p
  · exact .inl ⟨.window0, rfl⟩
  · exact .inl ⟨.window1, rfl⟩
  · exact .inr rfl

theorem Window.unlit_endAbandoned (x : Window) : x.endAbandoned.unlit = x.unlit.endAbandoned := rfl

theorem Window.unlit_takeAnswer (x : Window) (r : Response) : (x.takeAnswer r).unlit = x.unlit.takeAnswer r := rfl

theorem State.unlit_handOver_settled (s : State) (p : Port) (r : Response) (v : WindowPort) :
    ((s.settle.handOver p r).window.get v).unlit = ((s.handOver p r).window.get v).unlit := by
  obtain ⟨w, rfl⟩ | rfl := window_or_link p
  · rw [State.handOver_window, State.handOver_window]
    simp only [State.setWindow, PerWindow.get_set]
    split
    next =>
      rw [s.settle_handler]
      split
      next => rw [Window.unlit_endAbandoned, Window.unlit_endAbandoned, State.unlit_settle]
      next => rw [Window.unlit_takeAnswer, Window.unlit_takeAnswer, State.unlit_settle]
    next => exact s.unlit_settle v
  · have hwindow : ∀ t : State, (t.handOver .port2 r).window = t.window := fun t => by
      rw [State.handOver_port2]
      split <;> rfl
    rw [hwindow, hwindow, State.unlit_settle]

theorem State.settleLink_handOver_settled (s : State) (p : Port) (r : Response) :
    (s.settle.handOver p r).settleLink.link = (s.handOver p r).settleLink.link := by
  have hsession : ∀ t : State, (t.handOver p r).session = t.session := fun t => by
    obtain ⟨_, e⟩ := State.handOver_frame t p r
    rw [e]
  have hkept : s.settle.session = s.session := s.settleLink_session
  obtain ⟨w, rfl⟩ | rfl := window_or_link p
  · have hlink : ∀ t : State, (t.handOver w.port r).link = t.link := fun t => by rw [State.handOver_window]; rfl
    rw [State.settleLink_settled ((hlink _).trans s.settle_link) ((hsession _).trans hkept),
      State.settleLink_congr (hlink s) (hsession s)]
  · rw [State.handOver_port2, State.handOver_port2, s.settle_handler]
    split
    next =>
      generalize (s.handler.get .port2).finished none = x
      have hlink : (s.settle.setHandler .port2 x).link = s.settleLink.link := s.settle_link
      have hsettled := State.settleLink_settled hlink hkept
      exact hsettled.trans (State.settleLink_congr (s.setHandler_link .port2 x) (s.setHandler_session .port2 x)).symm
    next => exact State.settleLink_takeAnswer (s := s) rfl rfl hkept

/-- The hand-over settles alike whether the state had settled before it or not. -/
theorem State.settle_handOver_settled (s : State) (p : Port) (r : Response) :
    (s.settle.handOver p r).settle = (s.handOver p r).settle := by
  have hsame := s.handOver_settled_eq p r
  exact (congrArg State.settle hsame).trans
    (State.settle_of_lines (s.unlit_handOver_settled p r) (hsame ▸ s.settleLink_handOver_settled p r))

theorem next_answerReady {s : State} (hr : s.resetAsserted = false) (p : Port) :
    exec (.answerReady p) s = .next (s.answerReady p).settle := next_running hr _

theorem State.answerReady_of_idle {s : State} {p : Port} (h : (s.handler.get p).state = .idle) :
    s.answerReady p = s := if_pos h

theorem State.answerReady_of_answered {s : State} {p : Port} {r : Response}
    (hstate : (s.handler.get p).state = .executing) (hservice : (s.handler.get p).service = .answered r) :
    s.answerReady p = s.handOver p r := by
  unfold State.answerReady
  rw [if_neg (by rw [hstate]; decide), if_neg (by rw [hservice]; exact nofun)]
  dsimp only
  rw [hservice]

theorem State.answerReady_of_held {s : State} {p : Port} (hservice : (s.handler.get p).service = .held) :
    s.answerReady p = s := by
  unfold State.answerReady
  split
  next => rfl
  next =>
    rw [if_neg (by rw [hservice]; exact nofun)]
    dsimp only
    rw [hservice]

theorem State.answerReady_of_waiting {s : State} {p : Port} (hstate : (s.handler.get p).state = .executing)
    (hservice : (s.handler.get p).service = .waiting) :
    s.answerReady p =
      match ((s.carryCurrent p).handler.get p).service with
      | .answered r => (s.carryCurrent p).handOver p r
      | _ => s.carryCurrent p := by
  unfold State.answerReady
  rw [if_neg (by rw [hstate]; decide), if_pos hservice] <;> rfl

/-- The current request, carried to its block: its handler is as it was but for the service. -/
theorem State.carryCurrent_of_request {s : State} {p : Port} {r : Record} {q : Request}
    (hcurrent : (s.handler.get p).current = some r) (hq : r.request? = some q) :
    s.carryCurrent p = (s.serve p q).1.setService p ((s.serve p q).2.service r.tag) := by
  unfold State.carryCurrent
  rw [hcurrent]
  dsimp only
  rw [hq]

theorem State.carryCurrent_of_malformed {s : State} {p : Port} {r : Record}
    (hcurrent : (s.handler.get p).current = some r) (hq : r.request? = none) : s.carryCurrent p = s := by
  unfold State.carryCurrent
  rw [hcurrent]
  dsimp only
  rw [hq]

theorem State.serve_handler (s : State) (p : Port) (q : Request) : (s.serve p q).1.handler = s.handler := by
  obtain ⟨_, e⟩ := s.serve_frame p q
  rw [e]

/-- A waiting request is carried first: the answer then becomes ready as in the state its command leaves (R144, R145). -/
theorem State.answerReady_carried {s : State} {p : Port} {r : Record} (hstate : (s.handler.get p).state = .executing)
    (hservice : (s.handler.get p).service = .waiting) (hcurrent : (s.handler.get p).current = some r) :
    (s.answerReady p).settle = ((s.carryCurrent p).settle.answerReady p).settle := by
  rw [State.answerReady_of_waiting hstate hservice]
  cases hq : r.request? with
  | none =>
    have hsettled : s.settle.answerReady p = s.settle := by
      rw [← s.settle_handler] at hstate hservice hcurrent
      rw [State.answerReady_of_waiting hstate hservice, State.carryCurrent_of_malformed hcurrent hq, hservice]
    rw [State.carryCurrent_of_malformed hcurrent hq, hservice, hsettled, s.settle_settle]
  | some q =>
    have hcarried := State.carryCurrent_of_request hcurrent hq
    have hhandler : (s.carryCurrent p).handler.get p =
        { s.handler.get p with service := (s.serve p q).2.service r.tag } := by
      rw [hcarried, State.setService, s.serve_handler p q]
      exact PerPort.get_set_self _ _ _
    generalize s.carryCurrent p = c at hhandler ⊢
    have hexecuting : (c.settle.handler.get p).state = .executing := by
      rw [c.settle_handler, hhandler]
      exact hstate
    have hsame : (c.settle.handler.get p).service = (c.handler.get p).service := by rw [c.settle_handler]
    cases hreply : (s.serve p q).2 with
    | answer status data =>
      have hanswered : (c.handler.get p).service = .answered ⟨status, r.tag, data⟩ := by rw [hhandler, hreply]; rfl
      rw [State.answerReady_of_answered hexecuting (hsame.trans hanswered), hanswered, c.settle_handOver_settled]
    | held =>
      have hheld : (c.handler.get p).service = .held := by rw [hhandler, hreply]; rfl
      rw [State.answerReady_of_held (hsame.trans hheld), hheld, c.settle_settle]

/-! ### AnswerHandedOver -/

/-- The record held by the handler is carried when its command is taken (log entry 4). -/
theorem execRequest_of_waiting {s : State} {p : Port} {r : Record} (hr : s.resetAsserted = false)
    (hstate : (s.handler.get p).state = .executing) (hservice : (s.handler.get p).service = .waiting)
    (hcurrent : (s.handler.get p).current = some r) :
    execRequest p r s = .next (s.carryCurrent p).settle := by
  have hawaits : s.awaits p r = true := by simp [State.awaits, hstate, hservice, hcurrent]
  refine (next_running hr _).trans ?_
  rw [State.request, State.submitOnce, if_pos hawaits, State.carryOnce, if_pos hawaits]

/-- Settles O36: an idle handler, a waiting request carried first, a held read, and the four hand-overs. -/
theorem answerHandedOver : Obligations.AnswerHandedOver := by
  refine ⟨by decide, fun s p r hr => ⟨fun hidle => ?_, fun q hstate hservice hcurrent => ?_, fun _ hheld => ?_,
    fun hstate hanswered => ?_⟩⟩
  · rw [next_answerReady hr, State.answerReady_of_idle hidle]
  · refine ⟨_, execRequest_of_waiting hr hstate hservice hcurrent, ?_⟩
    have hreset : (s.carryCurrent p).settle.resetAsserted = false := by
      obtain ⟨_, e⟩ := s.carryCurrent_frame p
      rw [State.settle_eq, e]
      exact hr
    rw [next_answerReady hr, next_answerReady hreset, State.answerReady_carried hstate hservice hcurrent]
  · rw [next_answerReady hr, State.answerReady_of_held hheld]
  · have hready := (next_answerReady hr p).trans
      (congrArg (fun t : State => Host.Outcome.next t.settle) (State.answerReady_of_answered hstate hanswered))
    refine ⟨?_, ?_, ?_, ?_⟩
    · rintro w rfl habandoned
      rw [hready, State.handOver_window, if_neg (by rw [habandoned]; decide)] <;> rfl
    · rintro w rfl habandoned
      rw [hready, State.handOver_window, if_pos habandoned] <;> rfl
    · rintro rfl habandoned
      rw [hready, State.handOver_port2, if_neg (by rw [habandoned]; decide), Link.takeAnswer_eq] <;> rfl
    · rintro rfl habandoned
      rw [hready, State.handOver_port2, if_pos habandoned] <;> rfl

/-! ### JournalReadAnswers -/

theorem State.serveHeldRead_of_held {s : State} {p : Port} {r : Record} {offset length : Nat}
    (hstate : (s.handler.get p).state = .executing) (hservice : (s.handler.get p).service = .held)
    (hcurrent : (s.handler.get p).current = some r) (hr : r.request? = some (.journalRead offset length)) :
    s.serveHeldRead p =
      if s.grant = .replay then s else s.handOver p ⟨.ok, r.tag, journalBytes s offset length⟩ := by
  unfold State.serveHeldRead
  by_cases hruns : s.grant = .replay
  · rw [if_pos hruns, if_neg (fun h => h.2.2 hruns)]
  · rw [if_neg hruns, if_pos ⟨hstate, hservice, hruns⟩, hcurrent]
    dsimp only
    rw [hr]

theorem State.serveHeldRead_of_none {s : State} {p : Port}
    (h : (s.handler.get p).state = .idle ∨ (s.handler.get p).service ≠ .held) : s.serveHeldRead p = s := by
  refine if_neg fun ⟨hexecuting, hheld, _⟩ => ?_
  rcases h with hidle | hnone
  · rw [hidle] at hexecuting
    cases hexecuting
  · exact hnone hheld

theorem carried_journalRead (s : State) (p : Port) (tag : Byte) (offset length : Nat) :
    carried p tag (serveJournalRead s p offset length) =
      if length = 0 ∨ 60 < length ∨ 0x2FFF < offset ∨ 0x3000 < offset + length then s.answers p tag .range []
      else if s.grant = .replay then (s.setService p .held).settle
      else s.answers p tag .ok (journalBytes s offset length) := by
  simp only [serveJournalRead, Config.maxArgs, apply_ite (carried p tag), carried_refuse, carried_answer]
  rfl

/-- Settles O39: the tests of R45 in order, the held read once the array is free, and the hand-over field by field. -/
theorem journalReadAnswers : Obligations.JournalReadAnswers := by
  refine ⟨fun s d p tag offset length h => ?_, fun s p tag offset length hr hstate hservice hcurrent => ?_,
    fun s p hr hnone => ?_, ?_⟩
  · exact execRequest_carried h (journalRead_request? tag offset length)
      ((carried_journalRead d p tag _ _).trans (by simp only [← BitVec.toNat_inj]; rfl))
  · refine (next_running hr _).trans ?_
    rw [State.serveHeldRead_of_held hstate hservice hcurrent (journalRead_request? tag offset length)]
    split <;> rfl
  · refine (next_running hr _).trans ?_
    rw [State.serveHeldRead_of_none hnone]
  · intro s p r h finish
    refine ⟨?_, ?_⟩
    · rintro w rfl
      exact s.handOver_window w r
    · rintro rfl
      rw [s.handOver_port2 r, Link.takeAnswer_eq] <;> rfl

end Sys2Proof.Machine
end

section
/-! PROOF. The requests that read the part's state (R75, R155, R156, R178), the sessions' requests (R122, R123, R128,
R129) and NOTICE_READ (R137). -/

namespace Sys2Proof.Machine

/-! ### Status reads -/

theorem descriptorAt?_eq (position : Nat) : descriptorAt? position = catalogKeys[position]?.bind descriptor? := by
  unfold descriptorAt?
  cases catalogKeys[position]? <;> rfl

theorem descriptorAt?_position {position : Nat} {c : Descriptor} (h : descriptorAt? position = some c) :
    c.position = position := by
  rw [descriptorAt?_eq, Option.bind_eq_some_iff] at h
  obtain ⟨key, hkey, hc⟩ := h
  obtain ⟨c', hc', hposition⟩ := (catalogKeys_getElem?_iff position key).mp hkey
  rw [Option.some.inj (hc.symm.trans hc')]
  exact hposition

theorem serveCatalogRead_eq (s : State) (p : Port) (position : Nat) :
    serveCatalogRead s p position =
      match catalogKeys[position]?.bind descriptor? with
      | none => refuse s .range
      | some c => (s, .answer .ok c.bytes) := by
  rw [serveCatalogRead, descriptorAt?_eq]
  cases catalogKeys[position]?.bind descriptor? <;> rfl

theorem ReplayState.code_eq (r : ReplayState) :
    r.code = if r = .pending then 1 else if r = .rebuilding then 2 else 0 := by cases r <;> rfl

theorem carried_journalStat (s : State) (p : Port) (tag : Byte) :
    carried p tag (serveJournalStat s p) =
      s.answers p tag .ok
        ([s.journal.code, if s.replay = .pending then 1 else if s.replay = .rebuilding then 2 else 0] ++
          [s.bodyTop, s.directoryBottom, s.freeSpace, s.slotsUsed, s.counts.total, s.counts.applied,
            s.counts.revoked, s.counts.void, s.counts.torn, s.counts.corrupt].flatMap (bytesOfNat 2) ++
          if (s.session.get p).isOpen then
            (s.session.get p).lastRevoke.code :: bytesOfNat 2 ((s.session.get p).lastRevokeSeq.getD 0)
          else [0, 0, 0]) := by
  rw [serveJournalStat, carried_answer, ReplayState.code_eq]
  refine congrArg (s.answers p tag .ok) ?_
  cases (s.session.get p).isOpen <;>
    simp [ReplayCounts.bytes, field16, optional16, Result.code, bytesOfNat_two]

theorem serveCommitResult_eq (s : State) (p : Port) :
    serveCommitResult s p =
      (s, .answer .ok ((s.session.get p).lastCommit.result.code ::
        bytesOfNat 2 ((s.session.get p).lastCommit.seq.getD 0) ++
        [match (s.session.get p).lastCommit.failIndex with
          | some i => BitVec.ofNat 8 i
          | none => 0xFF,
         (s.session.get p).lastCommit.generation, (s.staging.get p).state.code,
         BitVec.ofNat 8 (s.staging.get p).actions.length])) := by
  rw [serveCommitResult]
  cases (s.session.get p).lastCommit.failIndex <;> rfl

theorem serveLinkStat_eq (s : State) (p : Port) (clear : Bool) :
    serveLinkStat s p clear =
      (if clear = true then s.setLink { s.link with crcErrors := 0, collisions := 0, losses := 0 } else s,
        .answer .ok ([s.link.crcErrors, s.link.collisions, s.link.losses].flatMap (bytesOfNat 2) ++
          [BitVec.ofNat 8 (s.link.ackWindow.getD 0)])) := by
  simp [serveLinkStat, field16, byteOf]

/-- Settles O38: the codes by evaluation, each request by what its block answers. -/
theorem statusReadsAnswer : Obligations.StatusReadsAnswer := by
  refine ⟨by decide, fun s d p tag position h => ?_, fun s d p tag h => ?_, fun s d p tag h => ?_,
    fun s d p tag clear h => ?_⟩
  · refine execRequest_carried h (byteRecord_request? .catalogRead tag position) ?_
    rw [State.serve, serveCatalogRead_eq]
    cases hc : catalogKeys[position.toNat]?.bind descriptor? with
    | none => rfl
    | some c =>
      have hposition : c.position = position.toNat := descriptorAt?_position ((descriptorAt?_eq _).trans hc)
      have hbyte : byteOf c.position = position := by rw [hposition, byteOf, BitVec.ofNat_toNat, BitVec.setWidth_eq]
      dsimp only
      rw [carried_answer, Descriptor.bytes, hbyte]
      rfl
  · exact execRequest_carried h (noArgsRecord_request? .journalStat tag) (carried_journalStat d p tag)
  · refine execRequest_carried h (noArgsRecord_request? .commitResult tag) ?_
    exact congrArg (carried p tag) (serveCommitResult_eq d p)
  · refine execRequest_carried h (linkStat_request? tag clear) ?_
    rw [State.serve, serveLinkStat_eq, carried_answer]

/-! ### OPEN and CLOSE -/

/-- The end of a session keeps the port's generation (R122). -/
theorem State.endSession_generation (s : State) (p : Port) :
    ((s.endSession p).session.get p).generation = (s.session.get p).generation := by
  cases hopen : (s.session.get p).isOpen with
  | false => rw [State.endSession_of_closed hopen]
  | true =>
    rw [State.endSession_of_open hopen, (State.sendReports_stays (s.sessionEnded p) _ p).generation]
    rw [State.sessionEnded, PerPort.get_set_self]

theorem carried_openSession (s : State) (p : Port) (tag : Byte) :
    carried p tag (serveOpen s p) =
      (((s.endSession p).setSession p
        { isOpen := true, generation := (s.session.get p).generation + 1, watches := [], queue := []
          tagCounter := 0, lastRevoke := .none, lastRevokeSeq := none
          lastCommit := ((s.endSession p).session.get p).lastCommit, headSent := false, lateCount := 0 }).answers
        p tag .ok
        [(s.session.get p).generation + 1, if (s.session.get p).isOpen then 1 else 0]) := by
  have hopened : s.openSession p = (s.endSession p).setSession p
      { isOpen := true, generation := (s.session.get p).generation + 1, watches := [], queue := []
        tagCounter := 0, lastRevoke := .none, lastRevokeSeq := none
        lastCommit := ((s.endSession p).session.get p).lastCommit, headSent := false, lateCount := 0 } := by
    rw [← s.endSession_generation p]
    rfl
  rw [serveOpen, carried_answer, hopened, State.setSession_session, PerPort.get_set_self]
  rfl

theorem carried_closeSession (s : State) (p : Port) (tag : Byte) :
    carried p tag (serveClose s p) =
      if (s.session.get p).isOpen = true then (s.endSession p).answers p tag .ok []
      else s.answers p tag .noSession [] := by
  rw [serveClose]
  cases (s.session.get p).isOpen <;> rfl

/-- Settles O42: the old session's end, then the new session; and the end of an open one. -/
theorem openCloseAnswer : Obligations.OpenCloseAnswer :=
  ⟨fun _ d p tag h =>
    execRequest_carried h (noArgsRecord_request? .openSession tag) (carried_openSession d p tag),
   fun _ d p tag h =>
    execRequest_carried h (noArgsRecord_request? .closeSession tag) (carried_closeSession d p tag)⟩

/-! ### WATCH and UNWATCH -/

theorem carried_watch (s : State) (p : Port) (tag : Byte) (first last : Nat) :
    carried p tag (serveWatch s p first last) =
      if (s.session.get p).isOpen = false then s.answers p tag .noSession []
      else if 0xFFF < first ∨ 0xFFF < last ∨ last < first then s.answers p tag .range []
      else if 8 ≤ (s.session.get p).watches.length then s.answers p tag .limit []
      else (s.setSession p
          { s.session.get p with watches := (s.session.get p).watches ++ [(first, last)] }).answers
        p tag .ok [BitVec.ofNat 8 ((s.session.get p).watches.length + 1)] := by
  simp only [serveWatch, Config.maxWatches, Bool.not_eq_true', apply_ite (carried p tag), carried_refuse,
    carried_answer, byteOf]

theorem carried_unwatch (s : State) (p : Port) (tag : Byte) (first last : Nat) :
    carried p tag (serveUnwatch s p first last) =
      if (s.session.get p).isOpen = false then s.answers p tag .noSession []
      else if (first, last) ∈ (s.session.get p).watches then
        (s.setSession p
            { s.session.get p with watches := (s.session.get p).watches.erase (first, last) }).answers
          p tag .ok [BitVec.ofNat 8 ((s.session.get p).watches.length - 1)]
      else s.answers p tag .notFound [] := by
  simp only [serveUnwatch, Bool.not_eq_true', apply_ite (carried p tag), carried_refuse, carried_answer, byteOf]

/-- Settles O43: the tests in order; the oldest equal range is the first one in the list. -/
theorem watchAnswers : Obligations.WatchAnswers := by
  refine ⟨fun s d p tag first last h => ?_, fun s d p tag first last h => ?_⟩
  · exact execRequest_carried h
      ((twoWordRecord_request? .watch tag first last).trans (readBounds_bytes16 .watch first last))
      (carried_watch d p tag _ _)
  · have hexec : exec (.unwatch p tag first last) s = _ := execRequest_carried h
      ((twoWordRecord_request? .unwatch tag first last).trans (readBounds_bytes16 .unwatch first last))
      (carried_unwatch d p tag _ _)
    rw [hexec]
    refine ⟨fun hclosed => ?_, fun hopen habsent => ?_, fun before after hopen hwatches habsent => ?_⟩
    · rw [if_pos hclosed]
    · rw [if_neg (by rw [hopen]; decide), if_neg habsent]
    · have herase : (before ++ (first.toNat, last.toNat) :: after).erase (first.toNat, last.toNat) =
          before ++ after := by
        rw [List.erase_append_right _ habsent, List.erase_cons_head]
      rw [if_neg (by rw [hopen]; decide), hwatches, if_pos (by simp), herase]
      simp only [List.length_append, List.length_cons, Nat.add_succ_sub_one]

/-! ### NOTICE_READ -/

theorem carried_noticeRead (s : State) (p : Port) (tag : Byte) :
    carried p tag (serveNoticeRead s p) =
      if (s.session.get p).isOpen = false then s.answers p tag .noSession []
      else if p = .port2 then s.answers p tag .notAllowed []
      else
        match (s.session.get p).queue with
        | [] => s.answers p tag .empty []
        | n :: rest => (s.setSession p { s.session.get p with queue := rest }).answers p tag .ok
            ([BitVec.ofNat 8 rest.length, n.body.code, n.tag] ++ n.body.bytes) := by
  simp only [serveNoticeRead, Bool.not_eq_true', apply_ite (carried p tag), carried_refuse]
  cases (s.session.get p).queue <;> rfl

/-- Settles O44: the bodies and codes by their definitions, then the tests and the head's delivery. -/
theorem noticeReadAnswers : Obligations.NoticeReadAnswers := by
  refine ⟨fun key layer cause port seq result n c => ?_, by decide, fun s d p tag h => ?_⟩
  · simp [NoticeBody.code, NoticeBody.bytes, bytesOfNat_two, field16, optional16, ReplayCounts.bytes, byteOf,
      portByte]
  · exact execRequest_carried h (noArgsRecord_request? .noticeRead tag) (carried_noticeRead d p tag)

end Sys2Proof.Machine
end

section
/-! PROOF. COMMIT, REVOKE and REBUILD asked for (R57, R58, R90, R95); overlays cleared, listed and aged (R111 to
R113). -/

namespace Sys2Proof.Machine

/-! ### COMMIT, REVOKE and REBUILD -/

theorem State.hasJob_iff (s : State) (p : Port) :
    s.hasJob p = true ↔ (∃ j ∈ s.burnQueue, j.port = p) ∨ (∃ a ∈ s.active, a.job.port = p) ∨
      (s.staging.get p).state = .queued ∨ (s.staging.get p).state = .burning := by
  unfold State.hasJob
  cases s.active <;> simp [or_assoc]

theorem carried_commit (s : State) (p : Port) (tag : Byte) :
    carried p tag (serveCommit s p) =
      if (s.session.get p).isOpen = false then s.answers p tag .noSession []
      else if s.hasJob p = true then s.answers p tag .busy []
      else if (s.staging.get p).state = .empty then s.answers p tag .empty []
      else (((s.setStaging p { s.staging.get p with state := .queued }).enqueue p .commit).arbitrate).answers
        p tag .accepted [] := by
  simp only [serveCommit, Bool.not_eq_true', apply_ite (carried p tag), carried_refuse, carried_answer]

theorem carried_revoke (s : State) (p : Port) (tag : Byte) (seq : Nat) :
    carried p tag (serveRevoke s p seq) =
      if (s.session.get p).isOpen = false then s.answers p tag .noSession []
      else if seq = 0 ∨ 256 < seq then s.answers p tag .range []
      else if s.hasJob p = true then s.answers p tag .busy []
      else ((s.enqueue p (.revoke seq)).arbitrate).answers p tag .accepted [] := by
  simp only [serveRevoke, Config.maxSlots, Bool.not_eq_true', apply_ite (carried p tag), carried_refuse,
    carried_answer]

theorem carried_rebuild (s : State) (p : Port) (tag : Byte) :
    carried p tag (serveRebuild s p) =
      if (s.session.get p).isOpen = false then s.answers p tag .noSession []
      else if s.replay ≠ .idle then s.answers p tag .busy []
      else
        ({ s with
           replay := .pending
           requester := some ⟨p, (s.session.get p).generation, true⟩ }).arbitrate.answers p tag .accepted [] := by
  simp only [serveRebuild, Bool.not_eq_true', apply_ite (carried p tag), carried_refuse, carried_answer]

/-- Settles O49: the tests in order, a port with a job said as R58 says it, and the arbiter on what is left. -/
theorem jobsAccepted : Obligations.JobsAccepted := by
  refine ⟨fun s d p tag h => ?_, fun s d p tag seq h => ?_, fun s d p tag h => ?_⟩
  · refine execRequest_carried h (noArgsRecord_request? .commit tag) ((carried_commit d p tag).trans ?_)
    simp only [State.hasJob_iff]
    rfl
  · refine execRequest_carried h (wordRecord_reads tag seq fun _ => rfl) ((carried_revoke d p tag _).trans ?_)
    simp only [State.hasJob_iff]
    rfl
  · exact execRequest_carried h (noArgsRecord_request? .rebuild tag) (carried_rebuild d p tag)

/-! ### Overlays that leave -/

/-- With the keys in rising order, the record on a key is the one that stands there. -/
theorem State.overlay?_of_mem {s : State} {o : OverlayRecord}
    (hrising : (s.overlays.map OverlayRecord.key).Pairwise (· < ·)) (ho : o ∈ s.overlays) :
    s.overlay? o.key = some o := by
  have hnodup : (s.overlays.map OverlayRecord.key).Nodup := hrising.imp Nat.ne_of_lt
  cases hx : s.overlay? o.key with
  | none => simpa using List.find?_eq_none.mp hx o ho
  | some x =>
    have hkey : x.key = o.key := by simpa using List.find?_some hx
    rw [List.inj_on_of_nodup_map hnodup (List.mem_of_find?_eq_some hx) ho hkey]

/-- A key's one report, where removing its overlay changes its effective value (R19, R23). -/
theorem keyReports_removed {s t : State} {o : OverlayRecord} (cause : Cause) (port : Port)
    (hbefore : s.overlay? o.key = some o) (hafter : t.overlay? o.key = none) (htable : t.table = s.table) :
    keyReports s t o.key cause port none =
      if o.value ≠ s.activeValue o.key then [⟨o.key, .effective, cause, port, none⟩] else [] := by
  have hactive : t.activeValue o.key = s.activeValue o.key := by
    simp only [State.activeValue, State.keyRecord?, htable]
  have hpending : s.pendingValue o.key = t.pendingValue o.key := by
    simp only [State.pendingValue, State.keyRecord?, htable]
  rw [keyReports, effectiveValue_of_overlay hbefore, effectiveValue_of_noOverlay hafter, hactive, if_pos hpending,
    List.append_nil, ite_not]

theorem flatMap_reported {p : OverlayRecord → Bool} {f : OverlayRecord → Report} (overlays : List OverlayRecord) :
    (overlays.flatMap fun o => if p o = true then [f o] else []) = (overlays.filter p).map f := by
  induction overlays with
  | nil => rfl
  | cons o rest ih =>
    rw [List.flatMap_cons, ih, List.filter_cons]
    split <;> rfl

/-- The reports of a removal: one for each removed overlay whose value the active one differs from (R23). -/
theorem removalReports_eq {s : State} (hrising : (s.overlays.map OverlayRecord.key).Pairwise (· < ·))
    (gone : OverlayRecord → Bool) (cause : Cause) (port : OverlayRecord → Port) :
    removalReports s { s with overlays := s.overlays.filter fun o => !gone o } (s.overlays.filter gone) cause port =
      (s.overlays.filter fun o => gone o && o.value ≠ s.activeValue o.key).map fun o =>
        ⟨o.key, .effective, cause, port o, none⟩ := by
  have hone : ∀ o ∈ s.overlays.filter gone,
      keyReports s { s with overlays := s.overlays.filter fun o => !gone o } o.key cause (port o) none =
        if decide (o.value ≠ s.activeValue o.key) = true then [⟨o.key, .effective, cause, port o, none⟩] else [] := by
    intro o ho
    rw [List.mem_filter] at ho
    obtain ⟨hmem, hgone⟩ := ho
    have hleft : ({ s with overlays := s.overlays.filter fun o => !gone o } : State).overlay? o.key = none := by
      refine List.find?_eq_none.mpr fun x hx hkey => ?_
      rw [List.mem_filter] at hx
      obtain ⟨hx, hstays⟩ := hx
      have hsame : some x = some o := by
        rw [← State.overlay?_of_mem hrising hx, ← State.overlay?_of_mem hrising hmem, of_decide_eq_true hkey]
      rw [Option.some.inj hsame, hgone] at hstays
      cases hstays
    rw [keyReports_removed cause (port o) (State.overlay?_of_mem hrising hmem) hleft rfl]
    simp only [decide_eq_true_eq]
  rw [removalReports, List.flatMap_congr hone, flatMap_reported, List.filter_filter]
  simp only [Bool.and_comm]

/-- With the keys in rising order, a removal tells of each overlay whose value the active one differs from. -/
theorem State.removeOverlays_eq {s : State} (hrising : (s.overlays.map OverlayRecord.key).Pairwise (· < ·))
    (gone : OverlayRecord → Bool) (cause : Cause) (port : OverlayRecord → Port) :
    s.removeOverlays gone cause port =
      ({ s with overlays := s.overlays.filter fun o => !gone o }).sendReports
        ((s.overlays.filter fun o => gone o && o.value ≠ s.activeValue o.key).map fun (o : OverlayRecord) =>
          ⟨o.key, .effective, cause, port o, none⟩) := by
  rw [State.removeOverlays, removalReports_eq hrising]

/-! ### OVERLAY_CLEAR and OVERLAY_LIST -/

/-- In a table of rising keys one record alone is on the key. -/
theorem filter_onKey {overlays : List OverlayRecord} {key : Nat} {o : OverlayRecord}
    (hrising : (overlays.map OverlayRecord.key).Pairwise (· < ·)) (ho : overlays.find? (·.key = key) = some o) :
    (overlays.filter fun x => decide (x.key = key)) = [o] := by
  induction overlays with
  | nil => cases ho
  | cons x rest ih =>
    rw [List.map_cons, List.pairwise_cons, List.forall_mem_map] at hrising
    obtain ⟨hlater, hrest⟩ := hrising
    rw [List.find?_cons] at ho
    rw [List.filter_cons]
    split at ho
    next hx =>
      rw [if_pos hx, Option.some.inj ho, List.filter_eq_nil_iff.mpr]
      intro y hy hkey
      have hlt := hlater y hy
      simp only [decide_eq_true_eq] at hx hkey
      omega
    next hx => rw [hx, if_neg (by decide), ih hrest ho]

theorem carried_overlayClear {s : State} (hrising : (s.overlays.map OverlayRecord.key).Pairwise (· < ·)) (p : Port)
    (tag : Byte) (key : Nat) :
    carried p tag (serveOverlayClear s p key) =
      if (s.session.get p).isOpen = false then s.answers p tag .noSession []
      else if s.replay = .rebuilding then s.answers p tag .rebuilding []
      else if descriptor? key = none then s.answers p tag .unknownKey []
      else
        match s.overlay? key with
        | none => s.answers p tag .notFound []
        | some o =>
          if o.ownerPort ≠ p ∧ s.holdsClass p 7 = false then s.answers p tag .owned []
          else
            (({ s with overlays := s.overlays.filter fun o => o.key ≠ key }).sendReports
              (if o.value = s.activeValue key then []
               else [⟨key, .effective, .overlayClear, p, none⟩])).answers p tag .ok [] := by
  simp only [serveOverlayClear, State.rebuildRuns, Bool.not_eq_true', decide_eq_true_eq, Option.isNone_iff_eq_none,
    apply_ite (carried p tag), carried_refuse]
  cases ho : s.overlay? key with
  | none => simp only [carried_refuse]
  | some o =>
    have hkey : o.key = key := by simpa using List.find?_some ho
    have hreported : (s.overlays.filter fun x => decide (x.key = key) && x.value ≠ s.activeValue x.key) =
        if o.value = s.activeValue key then [] else [o] := by
      have hsplit : (s.overlays.filter fun x => decide (x.key = key) && x.value ≠ s.activeValue x.key) =
          (s.overlays.filter fun x => decide (x.key = key)).filter fun x => x.value ≠ s.activeValue x.key := by
        rw [List.filter_filter]
        exact List.filter_congr fun x _ => Bool.and_comm _ _
      rw [hsplit, filter_onKey hrising ho, List.filter_cons, hkey]
      by_cases hsame : o.value = s.activeValue key <;> simp [hsame]
    simp only [apply_ite (carried p tag), carried_refuse, carried_answer, State.removeOverlays_eq hrising, hreported,
      apply_ite (List.map _), List.map_nil, List.map_cons, hkey]
    simp only [ne_eq, decide_not]

theorem carried_overlayList (s : State) (p : Port) (tag : Byte) (index : Nat) :
    carried p tag (serveOverlayList s p index) =
      if (s.session.get p).isOpen = false then s.answers p tag .noSession []
      else
        match s.overlays[index]? with
        | none => s.answers p tag .range []
        | some o => s.answers p tag .ok (BitVec.ofNat 8 s.overlays.length :: o.bytes) := by
  simp only [serveOverlayList, Bool.not_eq_true', apply_ite (carried p tag), carried_refuse]
  cases s.overlays[index]? <;> rfl

/-- Settles O51: the tests in order, the one record on the key removed with its report, the record listed. -/
theorem overlayClearList : Obligations.OverlayClearList := by
  refine ⟨?_, fun s d p tag index h => ?_⟩
  · intro s d p tag key h k after hrising
    exact execRequest_carried h (wordRecord_reads tag key fun _ => rfl) (carried_overlayClear hrising p tag _)
  · refine execRequest_carried h (byteRecord_request? .overlayList tag index) ((carried_overlayList d p tag _).trans ?_)
    rfl

/-! ### Ticks and expiries -/

theorem State.expireOverlays_due (s : State) : ∀ o ∈ s.expireOverlays.settle.overlays, o.due = false := by
  intro o ho
  have hoverlays : s.expireOverlays.settle.overlays = s.overlays.filter fun o => !o.due := by
    rw [State.settle_eq]
    rfl
  rw [hoverlays, List.mem_filter] at ho
  simpa using ho.2

theorem State.takeDue_of_none {s : State} (h : ∀ o ∈ s.overlays, o.due = false) :
    s.takeDue = if s.link.timer = .running 0 then s.expireTimer.settle else s := by
  have hnone : s.overlays.any (·.due) = false := by simpa using h
  rw [State.takeDue, hnone]
  rfl

theorem State.takeDue_of_due {s : State} (h : ∃ o ∈ s.overlays, o.due = true) :
    s.takeDue = s.expireOverlays.settle.takeDue := by
  have hsome : s.overlays.any (·.due) = true := by simpa using h
  rw [State.takeDue_of_none s.expireOverlays_due, State.takeDue, hsome]
  rfl

theorem next_timebaseTick {s : State} (hr : s.resetAsserted = false) :
    exec .timebaseTick s = .next s.takeDue.countTick.settle := next_running hr _

/-- Settles O52: the tick of a part with nothing due, the removal of what is due, and a tick that takes it first. -/
theorem overlaysAge : Obligations.OverlaysAge := by
  refine ⟨?_, fun s hr hrising => ?_, fun s hr hdue => ?_⟩
  · intro counted s hr hnone
    rw [next_timebaseTick hr, State.takeDue_of_none hnone]
    refine ⟨fun hwaits => ?_, fun hexpires => ⟨_, next_running hr _, ?_⟩⟩
    · rw [if_neg hwaits] <;> rfl
    · rw [if_pos hexpires] <;> rfl
  · refine (next_running hr _).trans ?_
    rw [State.expireOverlays, State.removeOverlays_eq hrising]
  · refine ⟨_, next_running hr _, s.expireOverlays_due, ?_⟩
    have hreset : s.expireOverlays.settle.resetAsserted = false := by
      rw [State.settle_resetAsserted]
      exact hr
    rw [next_timebaseTick hr, State.takeDue_of_due hdue, next_timebaseTick hreset]

end Sys2Proof.Machine
end

section
/-! PROOF. Frames taken by the Link Engine (R169 to R171): REQ, ACK and RESET (R138, R139, R171, R172, R175, R176). -/

namespace Sys2Proof.Machine

/-! ### Within a frame -/

/-- The collisions counted once a frame begins: one more from TURN with a frame to send (R174, R178). -/
def State.collided (s : State) : Nat :=
  if s.link.state = .turn ∧ s.sendable = true ∧ s.link.collisions < 65535 then s.link.collisions + 1
  else s.link.collisions

theorem State.collided_of_turn {s : State} (h : s.link.state = .turn) :
    s.collided = if s.sendable = true then countUp 65535 s.link.collisions else s.link.collisions := by
  unfold State.collided countUp
  cases s.sendable <;> simp [h]

theorem State.collided_of_not_turn {s : State} (h : s.link.state ≠ .turn) : s.collided = s.link.collisions :=
  if_neg fun hturn => h hturn.1

/-- The engine takes a frame in these states (R170, log entries 8 and 11). -/
def Link.takesFrame (l : Link) : Prop := l.state ∈ [LinkState.idle, .turn, .rx]

/-- The link within a frame: its start mark has been taken, as a collision where TURN had a frame to send. -/
def State.enteredLink (s : State) : Link :=
  { s.link with
    state := .rx, collisions := s.collided, rxBits := if s.link.state = .rx then s.link.rxBits else [] }

theorem State.withinFrame?_of_takes {s : State} (h : s.link.takesFrame) :
    s.withinFrame? = some (s.setLink s.enteredLink) := by
  have hstates : s.link.state = .idle ∨ s.link.state = .turn ∨ s.link.state = .rx := by
    simpa [Link.takesFrame] using h
  unfold State.withinFrame? State.takeStartMark State.enteredLink
  rcases hstates with hidle | hturn | hrx
  · rw [State.collided_of_not_turn (by rw [hidle]; decide)]
    simp only [hidle, reduceCtorEq, if_false]
  · rw [State.collided_of_turn hturn]
    simp only [hturn, reduceCtorEq, if_false]
    split <;> rfl
  · rw [State.collided_of_not_turn (by rw [hrx]; decide)]
    simp only [hrx, if_true]
    rw [← hrx]
    rfl

theorem State.withinFrame?_of_not_takes {s : State} (h : ¬s.link.takesFrame) : s.withinFrame? = none := by
  have hstates : s.link.state ≠ .idle ∧ s.link.state ≠ .turn ∧ s.link.state ≠ .rx := by
    simpa [Link.takesFrame] using h
  obtain ⟨hidle, hturn, hrx⟩ := hstates
  unfold State.withinFrame?
  split
  next h => exact absurd h hrx
  next h => exact absurd h hidle
  next h => exact absurd h hturn
  next => rfl

/-- The link within a frame of these bytes, held in its buffer (section 10.3). -/
def State.heldLink (s : State) (bytes : Bytes) : Link :=
  { s.enteredLink with buffer := loadBuffer s.link.buffer bytes }

/-- The link after a frame of these bytes: no bit received, and the collision counted where there was one. -/
def State.framedLink (s : State) (bytes : Bytes) : Link :=
  { s.link with
    state := .turn, collisions := s.collided, buffer := loadBuffer s.link.buffer bytes, rxBits := [] }

/-- A frame of known header that the engine takes (R169, R170). -/
theorem State.receiveWhole_of_takes {s : State} (h : s.link.takesFrame) {type : FrameType} {tag code : Byte}
    {payload : Bytes} (hfits : payload.length ≤ 60) :
    s.receiveWhole type tag code payload =
      ((s.setLink (s.heldLink (frameBytes type tag code payload))).takeFrame type tag code payload).endFrame .turn := by
  unfold State.receiveWhole
  rw [State.withinFrame?_of_takes h]
  dsimp only
  rw [if_pos (by exact hfits)]
  rfl

theorem State.receiveWhole_of_not_takes {s : State} (h : ¬s.link.takesFrame) (type : FrameType) (tag code : Byte)
    (payload : Bytes) : s.receiveWhole type tag code payload = s := by
  unfold State.receiveWhole
  rw [State.withinFrame?_of_not_takes h]

/-! ### REQ -/

/-- A REQ frame within the frame's link, to its end: the repeat, the BUSY, the delivery (R171, R172). -/
theorem State.takeReq_endFrame (s : State) (tag kind : Byte) (args bytes : Bytes) :
    ((s.setLink (s.heldLink bytes)).takeReq tag kind args).endFrame .turn =
      if (s.handler.get .port2).stored.isSome = true ∧ (s.handler.get .port2).lastTag = tag then
        s.setLink { s.framedLink bytes with pending := some .response }
      else if (s.handler.get .port2).state = .executing then
        s.setLink { s.framedLink bytes with pending := some (.busy tag) }
      else (s.deliver .port2 (Record.make kind tag args)).setLink { s.framedLink bytes with pending := none } := by
  unfold State.takeReq
  dsimp only [State.setLink_handler]
  split
  next => rfl
  next =>
    split
    next => rfl
    next => rfl

/-- Settles O56: a frame taken ends in the repeat, the BUSY or the delivery; in any other state there is none. -/
theorem reqTaken : Obligations.ReqTaken := by
  intro s tag kind args hr hfits h record link
  refine ⟨fun htakes => ?_, fun hnone => ?_⟩
  · refine (next_running hr _).trans ?_
    rw [State.receiveWhole_of_takes htakes hfits, State.takeFrame, State.takeReq_endFrame, State.deliver_eq]
    rfl
  · refine (next_running hr _).trans ?_
    rw [State.receiveWhole_of_not_takes hnone]

/-! ### ACK -/

theorem Session.acknowledge_cons {u : Session} {head : Notice} {rest : List Notice} (h : u.queue = head :: rest) :
    u.acknowledge =
      if head.isMarker = true ∧ u.lateCount ≠ 0 then
        { u with
          queue := ⟨u.tagCounter + 1, .noticesLost u.lateCount⟩ :: rest
          tagCounter := u.tagCounter + 1, headSent := false, lateCount := 0 }
      else { u with queue := rest, headSent := false, lateCount := 0 } := by
  unfold Session.acknowledge
  rw [h]

/-- The ACK of the head sent (R138, R175). -/
theorem State.takeAck_of_head {s : State} {tag : Byte} {head : Notice} {rest : List Notice}
    (hqueue : (s.session.get .port2).queue = head :: rest) (hopen : (s.session.get .port2).isOpen = true)
    (hsent : (s.session.get .port2).headSent = true) (htag : head.tag = tag) :
    s.takeAck tag =
      (s.setSession .port2 (s.session.get .port2).acknowledge).setLink
        { s.link with timer := .stopped, sendCount := 0 } := by
  unfold State.takeAck
  dsimp only
  rw [hqueue]
  dsimp only
  rw [if_pos ⟨hopen, hsent, htag⟩]

/-- Any other ACK is ignored (R175). -/
theorem State.takeAck_of_other {s : State} {tag : Byte}
    (h : (s.session.get .port2).isOpen = false ∨ (s.session.get .port2).headSent = false ∨
      ∀ head ∈ (s.session.get .port2).queue.head?, head.tag ≠ tag) : s.takeAck tag = s := by
  unfold State.takeAck
  dsimp only
  split
  next => rfl
  next head rest hqueue =>
    rw [if_neg]
    rintro ⟨hopen, hsent, htag⟩
    rcases h with hclosed | hunsent | hother
    · rw [hopen] at hclosed
      cases hclosed
    · rw [hsent] at hunsent
      cases hunsent
    · exact hother head (by rw [hqueue]; rfl) htag

/-! ### RESET -/

/-- A session end reads and leaves neither the link's state nor the bits it has received. -/
theorem State.endSession_endFrame (s : State) (p : Port) (next : LinkState) :
    (s.endSession p).endFrame next = (s.endFrame next).endSession p := by
  cases hopen : (s.session.get p).isOpen with
  | false => rw [State.endSession_of_closed hopen, State.endSession_of_closed (s := s.endFrame next) hopen]
  | true =>
    rw [State.endSession_of_open hopen, State.endSession_of_open (s := s.endFrame next) hopen]
    cases p <;> rfl

/-- A RESET frame to its end: the session's end, the handler's soft reset, no answer pending (R176). -/
theorem State.takeReset_endFrame (s : State) (next : LinkState) :
    s.takeReset.endFrame next =
      (((s.endFrame next).endSession .port2).setHandler .port2
        (if (s.handler.get .port2).state = .idle then { s.handler.get .port2 with stored := none }
         else { s.handler.get .port2 with abandoned := true, stored := none })).setLink
        { ((s.endFrame next).endSession .port2).link with pending := none } := by
  rw [← State.endSession_endFrame, State.takeReset, State.softReset_eq, State.endSession_handler]
  rfl

/-- Settles O57: the ACK of the head sent, any other one, the RESET; and none of them where no frame is taken. -/
theorem ackResetTaken : Obligations.AckResetTaken := by
  refine ⟨?_, fun s tag code hr hnone => ⟨?_, ?_⟩⟩
  · intro s tag code hr htakes u framed acked reset h
    have hack : s.receiveWhole .ack tag code [] =
        ((s.setLink (s.heldLink (frameBytes .ack tag code []))).takeAck tag).endFrame .turn :=
      State.receiveWhole_of_takes htakes (Nat.zero_le _)
    have hreset : s.receiveWhole .reset tag code [] =
        ((s.setLink (s.heldLink (frameBytes .reset tag code []))).takeReset).endFrame .turn :=
      State.receiveWhole_of_takes htakes (Nat.zero_le _)
    let held := s.setLink (s.heldLink (frameBytes .ack tag code []))
    refine ⟨fun head rest hqueue hopen hsent htag => ?_, fun hother => ?_, ?_⟩
    · refine (next_running hr _).trans ?_
      rw [hack, State.takeAck_of_head (s := held) hqueue hopen hsent htag,
        Session.acknowledge_cons (u := held.session.get .port2) hqueue]
      rfl
    · refine (next_running hr _).trans ?_
      rw [hack, State.takeAck_of_other (s := held) hother]
      rfl
    · refine (next_running hr _).trans ?_
      rw [hreset, State.takeReset_endFrame]
      rfl
  · exact (next_running hr _).trans (by rw [State.receiveWhole_of_not_takes hnone])
  · exact (next_running hr _).trans (by rw [State.receiveWhole_of_not_takes hnone])

end Sys2Proof.Machine
end

section
/-! PROOF. What the link sends (R170, R172, R173, R175), link loss (R177), and the lows and discarded frames on the line
(R168 to R170, R174). -/

namespace Sys2Proof.Machine

/-! ### The turnaround and the end of a sent frame -/

theorem State.completeTurnaround_of_other {s : State} (h : s.link.state ≠ .turn) : s.completeTurnaround = s := if_pos h

theorem State.completeTurnaround_of_response {s : State} {r : Response} (hturn : s.link.state = .turn)
    (hpending : s.link.pending = some .response) (hstored : (s.handler.get .port2).stored = some r) :
    s.completeTurnaround = s.beginSend .response (frameBytes .rsp r.tag r.status.code r.data) := by
  have hframe : s.answerFrame .response = frameBytes .rsp r.tag r.status.code r.data := by
    unfold State.answerFrame
    rw [hstored]
  unfold State.completeTurnaround
  rw [if_neg (not_not_intro hturn), hpending, hframe]

theorem State.completeTurnaround_of_busy {s : State} {tag : Byte} (hturn : s.link.state = .turn)
    (hpending : s.link.pending = some (.busy tag)) :
    s.completeTurnaround = s.beginSend (.busy tag) (frameBytes .busy tag 0 []) := by
  unfold State.completeTurnaround
  rw [if_neg (not_not_intro hturn), hpending]
  rfl

theorem State.completeTurnaround_of_none {s : State} (hturn : s.link.state = .turn) (hpending : s.link.pending = none) :
    s.completeTurnaround = if s.noteReady = true then s.beginNote else s.setLinkState .idle := by
  unfold State.completeTurnaround
  rw [if_neg (not_not_intro hturn), hpending]

theorem State.noteReady_iff (s : State) :
    s.noteReady = true ↔ (s.session.get .port2).isOpen = true ∧ (s.session.get .port2).queue ≠ [] ∧
      ((s.session.get .port2).headSent = false ∨ s.link.timer = .expired ∧ s.link.sendCount < 4) := by
  simp [State.noteReady, Config.maxSends, and_assoc]

theorem State.beginNote_of_cons {s : State} {n : Notice} {rest : List Notice}
    (h : (s.session.get .port2).queue = n :: rest) :
    s.beginNote = (s.setSession .port2 (s.session.get .port2).markSent).beginSend (.note true)
      (frameBytes .note n.tag n.body.code n.body.bytes) := by
  unfold State.beginNote
  dsimp only
  rw [h]

theorem next_turnaroundComplete {s : State} (hr : s.resetAsserted = false) :
    exec .turnaroundComplete s = .next s.completeTurnaround.settle := next_running hr _

theorem next_frameSendComplete {s : State} (hr : s.resetAsserted = false) (htx : s.link.state = .tx) :
    exec .frameSendComplete s = .next (s.setLink s.link.endSend).settle :=
  (next_running hr _).trans (congrArg _ (if_pos htx))

theorem Link.endSend_response {l : Link} (h : l.sending = some .response) :
    l.endSend = { l with
      state := .turn, sending := none, pending := if l.pending = some .response then none else l.pending } := by
  unfold Link.endSend
  rw [h]
  dsimp only
  split <;> rfl

theorem Link.endSend_busy {l : Link} {tag : Byte} (h : l.sending = some (.busy tag)) :
    l.endSend = { l with
      state := .turn, sending := none, pending := if l.pending = some (.busy tag) then none else l.pending } := by
  unfold Link.endSend
  rw [h]
  dsimp only
  split <;> rfl

theorem Link.endSend_note {l : Link} (h : l.sending = some (.note true)) :
    l.endSend = { l with
      state := .turn, sending := none, sendCount := l.sendCount + 1, timer := .running (l.ackWindow.getD 0) } := by
  unfold Link.endSend
  rw [h]

theorem Link.endSend_endedNote {l : Link} (h : l.sending = some (.note false)) :
    l.endSend = { l with state := .turn, sending := none } := by
  unfold Link.endSend
  rw [h]

/-- Settles O59: the frame that TURN selects, in order, and the end mark of each kind of frame. -/
theorem linkSends : Obligations.LinkSends := by
  refine ⟨?_, fun s hr => ⟨fun hother => ?_, fun htx => ⟨fun hsent => ?_, fun tag hsent => ?_, fun hsent => ?_,
    fun hsent => ?_⟩⟩⟩
  · intro s hr u send
    rw [next_turnaroundComplete hr]
    refine ⟨fun hother => ?_, fun hturn => ⟨fun r hpending hstored => ?_, fun tag hpending => ?_,
      fun n rest hpending hqueue hopen hready => ?_, fun hpending hnone => ?_⟩⟩
    · rw [State.completeTurnaround_of_other hother]
    · rw [State.completeTurnaround_of_response hturn hpending hstored]
      rfl
    · rw [State.completeTurnaround_of_busy hturn hpending]
      rfl
    · have hnote := s.noteReady_iff.mpr ⟨hopen, by rw [hqueue]; exact List.cons_ne_nil n rest, hready⟩
      rw [State.completeTurnaround_of_none hturn hpending, if_pos hnote, State.beginNote_of_cons hqueue]
      rfl
    · rw [State.completeTurnaround_of_none hturn hpending, if_neg]
      · rfl
      · rw [s.noteReady_iff]
        rintro ⟨hopen, hqueue, hready⟩
        rcases hnone with hclosed | hempty | ⟨hsent, hwaits⟩
        · exact absurd (hopen.symm.trans hclosed) (by decide)
        · exact hqueue hempty
        · rcases hready with hunsent | hexpired
          · exact absurd (hsent.symm.trans hunsent) (by decide)
          · exact hwaits hexpired
  · exact (next_running hr _).trans (congrArg _ (if_neg hother))
  · rw [next_frameSendComplete hr htx, Link.endSend_response hsent]
  · rw [next_frameSendComplete hr htx, Link.endSend_busy hsent]
  · rw [next_frameSendComplete hr htx, Link.endSend_note hsent]
  · rw [next_frameSendComplete hr htx, Link.endSend_endedNote hsent]

/-! ### Link loss -/

theorem State.holdLow_of_taken {s : State} (hoff : s.link.state ≠ .off) (hheld : s.link.state ≠ .heldLow) :
    s.holdLow = s.loseLink .heldLow := by
  unfold State.holdLow
  split
  next h => exact absurd h hoff
  next h => exact absurd h hheld
  next => rfl

theorem State.holdLow_of_ignored {s : State} (h : s.link.state = .off ∨ s.link.state = .heldLow) : s.holdLow = s := by
  unfold State.holdLow
  rcases h with h | h <;> rw [h]

/-- Settles O60: the held line, the expiry with sends left and without, the released line. -/
theorem linkLost : Obligations.LinkLost := by
  intro s hr h lose
  have hlose : ∀ next, s.loseLink next = lose next := fun next => by
    rw [State.loseLink, State.softReset_eq]
    rfl
  have hexpiry : exec .ackTimerExpiry s = .next s.expireTimer.settle := next_running hr _
  refine ⟨fun hoff hheld => ?_, fun hignored => ?_, fun hexpired hsends => ?_, fun hexpired hsends => ?_,
    fun hwaits => ?_, fun hheld => ?_, fun hother => ?_⟩
  · refine (next_running hr _).trans ?_
    rw [State.holdLow_of_taken hoff hheld, hlose]
  · refine (next_running hr _).trans ?_
    rw [State.holdLow_of_ignored hignored]
  · rw [hexpiry, State.expireTimer, if_pos hexpired, if_pos (by exact hsends)]
  · rw [hexpiry, State.expireTimer, if_pos hexpired, if_neg (Nat.not_lt.mpr hsends), hlose]
  · rw [hexpiry, State.expireTimer, if_neg hwaits]
  · refine (next_running hr _).trans ?_
    rw [State.releaseLine, if_pos hheld]
    rfl
  · refine (next_running hr _).trans ?_
    rw [State.releaseLine, if_neg hother]

/-! ### Received bytes -/

/-- Bytes that read as a frame, ended by an end mark: the frame is taken (R169, R170). -/
theorem State.receiveBytes_of_read {s : State} (h : s.link.takesFrame) {bytes : Bytes} {type : FrameType}
    {tag code : Byte} {payload : Bytes} (hread : readFrame bytes = some (type, tag, code, payload)) :
    s.receiveBytes bytes .endMark =
      ((s.setLink (s.heldLink bytes)).takeFrame type tag code payload).endFrame .turn := by
  unfold State.receiveBytes
  rw [State.withinFrame?_of_takes h, hread]
  rfl

/-- Any other bytes are discarded (R169). -/
theorem State.receiveBytes_of_unread {s : State} (h : s.link.takesFrame) {bytes : Bytes} {ending : FrameEnd}
    (hunread : ending ≠ .endMark ∨ readFrame bytes = none) :
    s.receiveBytes bytes ending = (s.setLink (s.heldLink bytes)).discardFrame ending := by
  unfold State.receiveBytes
  rw [State.withinFrame?_of_takes h]
  dsimp only
  split
  next _ _ _ _ _ hread =>
    rcases hunread with hending | hnone
    · exact absurd rfl hending
    · rw [hread] at hnone
      cases hnone
  next => rfl

theorem State.receiveBytes_of_not_takes {s : State} (h : ¬s.link.takesFrame) (bytes : Bytes) (ending : FrameEnd) :
    s.receiveBytes bytes ending = s := by
  unfold State.receiveBytes
  rw [State.withinFrame?_of_not_takes h]

/-- Bytes that read as a frame are received as that whole frame is (R169). -/
theorem State.receiveBytes_eq_receiveWhole {s : State} (h : s.link.takesFrame) {bytes : Bytes} {type : FrameType}
    {tag code : Byte} {payload : Bytes} (hread : readFrame bytes = some (type, tag, code, payload)) :
    s.receiveBytes bytes .endMark = s.receiveWhole type tag code payload := by
  obtain ⟨hbytes, hfits, -⟩ := readFrame_some hread
  rw [State.receiveBytes_of_read h hread, State.receiveWhole_of_takes h hfits, hbytes]

theorem next_frameDiscarded {s : State} (hr : s.resetAsserted = false) (bytes : Bytes) (ending : FrameEnd) :
    exec (.frameDiscarded bytes ending) s = .next (s.receiveBytes bytes ending).settle := next_running hr _

/-- A frame of a type that the partner alone receives is ignored (R169). -/
theorem takeFrame_ignored {bytes : Bytes} {type : FrameType} {tag code : Byte} {payload : Bytes}
    (hread : readFrame bytes = some (type, tag, code, payload)) (hwf : isTakenFrame bytes .endMark = false) (s : State) :
    s.takeFrame type tag code payload = s := by
  unfold isTakenFrame at hwf
  rw [hread] at hwf
  cases type with
  | req => cases hwf
  | ack => cases hwf
  | reset => cases hwf
  | rsp => rfl
  | note => rfl
  | busy => rfl

/-! ### Lows by their lengths -/

theorem classifyLow_of_lt_500 {ns : Nat} (h : ns < 500) : classifyLow ns = .glitch := if_pos h

theorem classifyLow_of_bit {ns : Nat} (hlow : 500 ≤ ns) (hhigh : ns < 11000) :
    classifyLow ns = if 4000 ≤ ns then .bit1 else .bit0 := by
  unfold classifyLow
  rw [if_neg (by omega), if_pos hhigh]
  by_cases hbit : 4000 ≤ ns
  · rw [if_neg (by omega), if_pos hbit]
  · rw [if_pos (by omega), if_neg hbit]

theorem classifyLow_of_endMark {ns : Nat} (hlow : 11000 ≤ ns) (hhigh : ns < 19000) : classifyLow ns = .endMark := by
  unfold classifyLow
  rw [if_neg (by omega), if_neg (by omega), if_neg (by omega), if_pos hhigh]

/-- A long low that is no link loss is a violation (log entry 9). -/
theorem classifyLow_of_violation {ns : Nat} (hlow : 32000 ≤ ns) (hwf : isPreambleOrNoise ns = true) :
    classifyLow ns = .violation := by
  have hclass : classifyLow ns = if ns ≤ 5000000 then .violation else .linkLoss := by
    unfold classifyLow
    rw [if_neg (by omega), if_neg (by omega), if_neg (by omega), if_neg (by omega), if_neg (by omega)]
  rw [hclass]
  split
  next => rfl
  next hloss =>
    rw [isPreambleOrNoise, hclass, if_neg hloss] at hwf
    exact absurd hwf (by decide)

/-- Outside a frame no bit and no noise does anything, and a glitch does nothing within one (R168). -/
theorem State.takeLow_of_ignored {s : State} {ns : Nat} (hwf : isPreambleOrNoise ns = true)
    (h : s.link.state ≠ .rx ∨ ns < 500) : s.takeLow ns = s := by
  unfold State.takeLow
  rcases h with hother | hglitch
  · unfold isPreambleOrNoise at hwf
    cases hclass : classifyLow ns with
    | startMark => rw [hclass] at hwf; exact absurd hwf (by decide)
    | linkLoss => rw [hclass] at hwf; exact absurd hwf (by decide)
    | glitch => rfl
    | bit0 => exact if_neg hother
    | bit1 => exact if_neg hother
    | endMark => exact if_neg hother
    | violation => exact if_neg hother
  · rw [classifyLow_of_lt_500 hglitch]

theorem State.takeLow_of_bit {s : State} {ns : Nat} (hrx : s.link.state = .rx) (hlow : 500 ≤ ns) (hhigh : ns < 11000) :
    s.takeLow ns = s.takeBit (decide (4000 ≤ ns)) := by
  unfold State.takeLow
  rw [classifyLow_of_bit hlow hhigh]
  by_cases hbit : 4000 ≤ ns
  · rw [if_pos hbit, decide_eq_true hbit]
    exact if_pos hrx
  · rw [if_neg hbit, decide_eq_false hbit]
    exact if_pos hrx

theorem State.takeLow_of_endMark {s : State} {ns : Nat} (hrx : s.link.state = .rx) (hlow : 11000 ≤ ns)
    (hhigh : ns < 19000) :
    s.takeLow ns =
      if s.link.rxBits.length % 8 ≠ 0 then s.discardFrame .violation
      else s.receiveBytes (bytesOfBits s.link.rxBits) .endMark := by
  unfold State.takeLow
  rw [classifyLow_of_endMark hlow hhigh, ite_not]
  exact if_pos hrx

theorem State.takeLow_of_violation {s : State} {ns : Nat} (hrx : s.link.state = .rx) (hlow : 32000 ≤ ns)
    (hwf : isPreambleOrNoise ns = true) : s.takeLow ns = s.discardFrame .violation := by
  unfold State.takeLow
  rw [classifyLow_of_violation hlow hwf]
  exact if_pos hrx

theorem next_preambleOrNoise {s : State} (hr : s.resetAsserted = false) (ns : Nat) :
    exec (.preambleOrNoise ns) s = .next (s.takeLow ns).settle := next_running hr _

theorem next_req {s : State} (hr : s.resetAsserted = false) (tag kind : Byte) (args : Bytes) :
    exec (.req tag kind args) s = .next (s.receiveWhole .req tag kind args).settle := next_running hr _

theorem next_ack {s : State} (hr : s.resetAsserted = false) (tag code : Byte) :
    exec (.ack tag code) s = .next (s.receiveWhole .ack tag code []).settle := next_running hr _

theorem next_resetFrame {s : State} (hr : s.resetAsserted = false) (tag code : Byte) :
    exec (.resetFrame tag code) s = .next (s.receiveWhole .reset tag code []).settle := next_running hr _

/-- An end mark on a byte boundary does what the command of the frame it ends does (R168, R169). -/
theorem exec_endMark {s : State} (hr : s.resetAsserted = false) (htakes : s.link.takesFrame) (bytes : Bytes) :
    Host.Outcome.next (s.receiveBytes bytes .endMark).settle =
      match readFrame bytes with
      | some (.req, tag, kind, args) => exec (.req tag kind args) s
      | some (.ack, tag, code, _) => exec (.ack tag code) s
      | some (.reset, tag, code, _) => exec (.resetFrame tag code) s
      | _ => exec (.frameDiscarded bytes .endMark) s := by
  split
  next hread =>
    rw [State.receiveBytes_eq_receiveWhole htakes hread]
    exact (next_req hr _ _ _).symm
  next hread =>
    obtain ⟨-, -, hempty⟩ := readFrame_some hread
    rw [State.receiveBytes_eq_receiveWhole htakes hread, hempty (.inl rfl)]
    exact (next_ack hr _ _).symm
  next hread =>
    obtain ⟨-, -, hempty⟩ := readFrame_some hread
    rw [State.receiveBytes_eq_receiveWhole htakes hread, hempty (.inr rfl)]
    exact (next_resetFrame hr _ _).symm
  next => exact (next_frameDiscarded hr bytes .endMark).symm

theorem State.takeStartMark_eq (s : State) :
    s.takeStartMark =
      match s.link.state with
      | .idle => s.setLink { s.link with state := .rx, rxBits := [] }
      | .turn => s.setLink
          { s.link with
            state := .rx, rxBits := []
            collisions := if s.sendable = true then countUp 65535 s.link.collisions else s.link.collisions }
      | .rx => s.setLink { s.link with crcErrors := countUp 65535 s.link.crcErrors, rxBits := [] }
      | _ => s := by
  unfold State.takeStartMark
  cases s.link.state <;> cases s.sendable <;> rfl

/-- Settles O58: the discarded or ignored frame, the start mark, and the other lows by their lengths. -/
theorem lineTaken : Obligations.LineTaken := by
  refine ⟨fun s bytes ending hr hwf => ⟨?_, fun hnone => ?_⟩, ?_⟩
  · intro htakes ignored
    rw [next_frameDiscarded hr]
    by_cases hignored : ignored = true
    · obtain ⟨hending, hread⟩ : ending = .endMark ∧ (readFrame bytes).isSome = true := by
        simpa only [ignored, Bool.and_eq_true, decide_eq_true_eq] using hignored
      obtain ⟨⟨type, tag, code, payload⟩, hread⟩ := Option.isSome_iff_exists.mp hread
      subst hending
      have hother : isTakenFrame bytes .endMark = false := by simpa only [Instr.wf, Bool.not_eq_true'] using hwf
      rw [State.receiveBytes_of_read htakes hread, takeFrame_ignored hread hother, hignored]
      rfl
    · have hunread : ending ≠ .endMark ∨ readFrame bytes = none := by
        simpa only [ignored, Bool.and_eq_true, decide_eq_true_eq, not_and_or, Option.not_isSome_iff_eq_none]
          using hignored
      rw [State.receiveBytes_of_unread htakes hunread, Bool.eq_false_iff.mpr hignored]
      simp only [true_and]
      rfl
  · rw [next_frameDiscarded hr, State.receiveBytes_of_not_takes hnone]
  · intro s hr crc collisions discarded
    refine ⟨?_, fun ns hwf => ⟨fun hignored => ?_, fun hrx hlow hhigh => ?_, fun hrx hlow hhigh => ?_,
      fun hrx hlow => ?_⟩⟩
    · refine (next_running hr _).trans ?_
      rw [State.takeStartMark_eq] <;> rfl
    · rw [next_preambleOrNoise hr, State.takeLow_of_ignored hwf hignored]
    · rw [next_preambleOrNoise hr, State.takeLow_of_bit hrx hlow hhigh] <;> rfl
    · have htakes : s.link.takesFrame := by simp [Link.takesFrame, hrx]
      rw [next_preambleOrNoise hr, State.takeLow_of_endMark hrx hlow hhigh]
      split
      next => rfl
      next => exact exec_endMark hr htakes _
    · rw [next_preambleOrNoise hr, State.takeLow_of_violation hrx hlow hwf] <;> rfl

end Sys2Proof.Machine
end
